-- ==== Sys2Proof/Word.lean ====
section
/-! DEFINITION. The values the block moves and their plainest arithmetic (00_scope.md R14, R15).

R14: "Every value in this spec is an unsigned integer of the width its declaration states." The widths are parameters of
an instance (R6 to R12), so a value is a natural number, and its width stands in `fits` and in `State.Wf` (log 1). -/

namespace Sys2Proof

/-- `x` is a value of `width` bits. -/
def fits (width : Nat) (x : Nat) : Bool := decide (x < 2 ^ width)

/-- R15: arithmetic on a `width`-bit register is modulo `2 ^ width`: the register's value plus one. -/
def incMod (width : Nat) (x : Nat) : Nat := (x + 1) % 2 ^ width

/-- R15: `sat_P(x) = min(x, 2^P - 1)`. -/
def sat (width : Nat) (x : Nat) : Nat := min x (2 ^ width - 1)

end Sys2Proof
end

