-- ==== Sys2Proof/Config.lean ====
section
/-! DEFINITION. What an instance fixes (00_scope.md R6 to R13), the kinds of input the environment presents, and the
values the spec leaves free. -/

namespace Sys2Proof

/-- R6 to R12, and the environment's `DELAY_BOUND` of R13. An instance's parameters are plain data, so that a
statement about every state is a statement about every instance (log 1). -/
structure Config where
  /-- `A`, the pointer width (R6) -/
  addrBits : Nat
  /-- `W`, the record width (R8) -/
  dataBits : Nat
  /-- `S`, the stages of each pointer synchroniser and of the arm synchroniser (R9) -/
  syncStages : Nat
  /-- `SR`, the stages of each reset synchroniser (R10) -/
  rstStages : Nat
  /-- `HAS_RC`: the companion rate controller is present (R11) -/
  hasRc : Bool
  /-- `P`, the width of `consume_every` and of `rc_modifier` (R12) -/
  periodBits : Nat
  /-- `K`, the bound of the reference producer's delay (R13, R134) -/
  delayBound : Nat
deriving DecidableEq, Repr

/-- R6: `N = 2^A` slots. -/
def Config.slots (c : Config) : Nat := 2 ^ c.addrBits

/-- R7: the capacity is `N - 1` records. -/
def Config.capacity (c : Config) : Nat := c.slots - 1

/-- The bounds R6 to R13 put on the parameters. -/
def Config.wf (c : Config) : Bool :=
  decide (1 ≤ c.addrBits) && decide (1 ≤ c.dataBits) && decide (2 ≤ c.syncStages) &&
    decide (1 ≤ c.rstStages) && decide (1 ≤ c.periodBits) && decide (1 ≤ c.delayBound)

/-- R3: the reference instance `SPSCFIFO-v7 A=2 W=24 S=2 SR=2 RC=1 P=16`. The spec leaves `K` open; 1 is a
DESIGN CHOICE (log 13). -/
def Config.reference : Config :=
  { addrBits := 2, dataBits := 24, syncStages := 2, rstStages := 2, hasRc := true, periodBits := 16, delayBound := 1 }

/-- R3: an instance's identity string. -/
def Config.identity (c : Config) : String :=
  "SPSCFIFO-v7 A=" ++ toString c.addrBits ++ " W=" ++ toString c.dataBits ++ " S=" ++ toString c.syncStages ++
    " SR=" ++ toString c.rstStages ++ " RC=" ++ (if c.hasRc then "1" else "0") ++ " P=" ++ toString c.periodBits

/-- R72: the format of a step's word, known from the kind of step. -/
inductive Format where
  /-- a W-edge's sample word (R73) -/
  | we
  /-- an R-edge's sample word (R74) -/
  | re
  /-- a reset event's word (R75) -/
  | sy
deriving DecidableEq, Repr, Inhabited

/-- R73, R74, R75: a format's width in bits. -/
def Format.width (c : Config) : Format → Nat
  | .we => c.dataBits + 2
  | .re => c.periodBits + 2
  | .sy => 1

/-- R25: the two clock domains. -/
inductive Domain where
  | write
  | read
deriving DecidableEq, Repr, Inhabited

/-- The three synchroniser first stages at which R110 offers a draw. -/
inductive Site where
  | rq1
  | wq1
  | as1
deriving DecidableEq, Repr, Inhabited

/-- R86: a draw choice of a script line. `free` leaves the draw to the free value of `Config.freeDraw` (log 4). -/
inductive Choice where
  /-- the value before the source's latest change -/
  | old
  /-- the source's current value -/
  | new
  /-- nothing is said: either may be drawn -/
  | free
deriving DecidableEq, Repr, Inhabited

/-- The environment's draw choices for one step (R18, R110). -/
structure Draws where
  rq1 : Choice
  wq1 : Choice
  as1 : Choice
deriving DecidableEq, Repr, Inhabited

def Draws.choice (d : Draws) : Site → Choice
  | .rq1 => d.rq1
  | .wq1 => d.wq1
  | .as1 => d.as1

/-- Every draw left free. -/
def Draws.allFree : Draws := ⟨.free, .free, .free⟩

/-- R86: "An absent choice means `new`." -/
def Draws.allNew : Draws := ⟨.new, .new, .new⟩

/-- What the environment presents at one step: a sample word of a format with its draw choices (R22, R72), or the
reset of one domain alone, which R154 does not support. -/
inductive Line where
  | sample (fmt : Format) (word : Nat) (draws : Draws)
  | partialReset (d : Domain)
deriving DecidableEq, Repr, Inhabited

/-- Free value (R18, R110; log 4): whether the `n`-th step draws the old value at a first stage. -/
opaque Config.freeDraw : Site → Nat → Bool

/-- Free value (R100; log 5): what `r_data` shows at the `n`-th step while `r_empty = 1`. -/
opaque Config.freeRecord : Nat → Nat

/-- Free value (R45, R50; log 6): what a slot that holds `⊥` presents when it is read. -/
opaque Config.powerUpRecord : Nat → Nat

/-- Free value (R45, R50; log 7): what a slot presents that a reset assertion found holding a record, until it is written
again. The slot keeps that record, and so the value depends on it, in a way nothing says. -/
opaque Config.keptRecord : Nat → Nat → Nat

/-- Free value (R13 `CLOCK_SCHEDULE` and `TICK_SOURCE`, R22; log 3): what the environment presents at the `n`-th step
when the script has run out. -/
opaque Config.schedule : Nat → Line

end Sys2Proof
end

