-- ==== Sys2Proof/Machine/Pointers.lean ====
section
/-! DEFINITION. Pointer arithmetic, the gray code, synchroniser chains and the first-stage capture
(42_pointer_sync.md §1, §2). -/

namespace Sys2Proof.Machine

/-- R15: `inc_A(x) = (x + 1) mod N`. -/
def incPtr (c : Config) (x : Nat) : Nat := incMod c.addrBits x

/-- R105: `gray_A(b) = b ^ (b >> 1)`. -/
def gray (b : Nat) : Nat := b ^^^ (b >>> 1)

/-- R106: `bin_A(g) = g ^ (g >> 1) ^ (g >> 2) ^ ... ^ (g >> (A-1))`. -/
def bin : Nat → Nat → Nat
  | 0, _ => 0
  | n + 1, g => bin n g ^^^ (g >>> n)

/-- R40, R111, R112, R122: one edge of a chain of stages: stage 1 takes `v`, stage `k` takes stage `k - 1`. -/
def shiftIn {α : Type} (v : α) : List α → List α
  | [] => []
  | a :: rest => v :: shiftIn a rest

/-- R110: `capture(cur, prev, dirty)`, where `old` says that the draw takes `prev`; it is consulted only when `dirty`. -/
def capture {α : Type} (cur prev : α) (dirty old : Bool) : α := if dirty && old then prev else cur

end Sys2Proof.Machine
end

