-- ==== Sys2Proof/Machine/State.lean ====
section
/-! DEFINITION. The state of the block, its companion and its environment (10_state.md), as plain data; the reasons a
step can stop; the state after reset. -/

namespace Sys2Proof.Machine

/-- Why a step faults. -/
inductive Fault where
  /-- Raised by an environment line that resets one domain alone (R154, R138). It is the spec's own faulted state:
  absorbing, since no state follows (R20). Safe: nothing can be proved of a run after it. -/
  | partialReset
deriving DecidableEq, Repr

/-- Why the model gives a step no meaning. -/
inductive Refusal where
  /-- An instruction that has no meaning yet, raised by its arm of exec; no arm raises it now. Safe. -/
  | notModelled (mnemonic : String)
  /-- Raised by an RE word with `t = e = 1` (R81: "A model refuses a step with this word"). Safe. -/
  | twoConsumers
  /-- Raised by a word, or an operation, with a 1 in a field the instance ties to 0 (R82). Safe. -/
  | absentPort
  /-- Raised by a word, or an operation, wider than its format: a bit no port carries (R72, R73, R74; log 11). Safe. -/
  | wordTooWide
deriving DecidableEq, Repr

/-- R45: the storage array, as the list of its slots that hold a value, each with its record, slots strictly rising. A
slot that is not listed holds `⊥` (log 6, log 20). -/
abbrev Memory := List (Nat × Nat)

/-- R138: the misuse conditions. -/
inductive Misuse where
  /-- enqueue while full (R136) -/
  | overflow
  /-- dequeue while empty (R137) -/
  | underflow
deriving DecidableEq, Repr

/-- R44: `rc_rpt_kind`, 0 for a drain and 1 for an underrun. -/
inductive ReportKind where
  | drain
  | underrun
deriving DecidableEq, Repr

/-- The registers of the write domain (R32, R33, R34, R38, R40, R46). A synchroniser chain lists its stages in order,
stage 1 first. -/
structure WriteDomain where
  wptrBin : Nat
  wptrGray : Nat
  wq : List Nat
  wOvf : Bool
  wRs : List Bool
  armQ : Bool
deriving DecidableEq, Repr

/-- The registers of the read domain (R35, R36, R37, R39, R40) and of the companion (R46). -/
structure ReadDomain where
  rptrBin : Nat
  rptrGray : Nat
  rq : List Nat
  rUdf : Bool
  rRs : List Bool
  armS : List Bool
  enable : Bool
  cycle : Nat
  consumeEvery : Nat
  rptValid : Bool
  rptKind : ReportKind
  rptData : Nat
  rptPeriod : Nat
deriving DecidableEq, Repr

/-- R47: the model-only record of the latest change of each signal that crosses. -/
structure Crossing where
  wgrayPrev : Nat
  wgrayDirty : Bool
  rgrayPrev : Nat
  rgrayDirty : Bool
  armPrev : Bool
  armDirty : Bool
deriving DecidableEq, Repr

/-- R47, R104, R138: the ghost counters, the two observation traces (oldest first) and the model's log of misuses. -/
structure Observation where
  enqCount : Nat
  deqCount : Nat
  accepted : List Nat
  consumed : List Nat
  misuses : List Misuse
deriving DecidableEq, Repr

/-- R132, R133: the reference producer, a client of the write port. -/
structure Producer where
  /-- the record it offers next -/
  next : Nat
  /-- the `W_NOP` edges it still waits -/
  delay : Nat
deriving DecidableEq, Repr

/-- R87: the pseudo-operations of the stimulus script. -/
inductive Pseudo where
  | push (v : Nat)
  | pushArm (v : Nat)
  | pop
  | wIdle (n : Nat)
  | rIdle (n : Nat)
  /-- `RESET`; `order` says how its W-edges and R-edges interleave (R87: "in any interleaving"; log 14) -/
  | reset (order : List Domain)
  | rSettle
  | wSettle
deriving DecidableEq, Repr

/-- One entry of the script: a line (R86), a pseudo-operation (R87), or a W-edge driven by the reference producer with
the delay it would draw (R133, R134). -/
inductive Stimulus where
  | line (l : Line)
  | pseudo (p : Pseudo)
  | producerEdge (delayDraw : Nat) (draws : Draws)
deriving DecidableEq, Repr

/-- The environment's side of the model: the script still to be presented, the reference producer, and the model's own
draw choices and step counter (log 3, log 4). -/
structure Environment where
  inputs : List Stimulus
  producer : Producer
  draws : Draws
  drawIndex : Nat
deriving DecidableEq, Repr

/-- The whole machine. -/
structure State where
  cfg : Config
  w : WriteDomain
  r : ReadDomain
  /-- R45: what every slot holds, in fact -/
  mem : Memory
  /-- R45, R50: the slots, rising, that hold a record from before the last reset assertion: kept, and unspecified
  (log 7) -/
  stale : List Nat
  x : Crossing
  g : Observation
  /-- R48: the level of the `rst` input -/
  rstIn : Bool
  env : Environment
deriving DecidableEq, Repr

/-- R49: the write domain after a reset assertion. -/
def WriteDomain.afterReset (c : Config) : WriteDomain :=
  { wptrBin := 0, wptrGray := 0, wq := List.replicate c.syncStages 0, wOvf := false,
    wRs := List.replicate c.rstStages true, armQ := false }

/-- R49: the read domain and the companion after a reset assertion. -/
def ReadDomain.afterReset (c : Config) : ReadDomain :=
  { rptrBin := 0, rptrGray := 0, rq := List.replicate c.syncStages 0, rUdf := false,
    rRs := List.replicate c.rstStages true, armS := List.replicate c.syncStages false, enable := false, cycle := 0,
    consumeEvery := 1, rptValid := false, rptKind := .drain, rptData := 0, rptPeriod := 0 }

/-- R49: "every field of rule R47 is 0". -/
def Crossing.afterReset : Crossing :=
  { wgrayPrev := 0, wgrayDirty := false, rgrayPrev := 0, rgrayDirty := false, armPrev := false, armDirty := false }

/-- R150: the ghost counters are 0 and the traces empty; so is the log of misuses (log 9). -/
def Observation.afterReset : Observation :=
  { enqCount := 0, deqCount := 0, accepted := [], consumed := [], misuses := [] }

/-- R132: "The first record after reset is 0." -/
def Producer.afterReset : Producer := { next := 0, delay := 0 }

/-- R155: the launch state of an instance, just after a `RESET_ASSERT` from power-up: every register at its value of
R49, `rst_in = 1`, every slot `⊥`. The script is empty and nothing is said of the draws (log 3, log 4). -/
def State.launch (c : Config) : State :=
  { cfg := c, w := WriteDomain.afterReset c, r := ReadDomain.afterReset c, mem := [], stale := [],
    x := Crossing.afterReset, g := Observation.afterReset, rstIn := true,
    env := { inputs := [], producer := Producer.afterReset, draws := Draws.allFree, drawIndex := 0 } }

/-- The reference instance (R3) in its launch state. -/
def State.reset : State := State.launch Config.reference

end Sys2Proof.Machine
end

