-- ==== Sys2Proof/Machine/Flags.lean ====
section
/-! DEFINITION. The condition outputs of both domains and the occupancy views: every flag computation of the spec
(40_write_port.md §2, 41_read_port.md §2). All are functions of one domain's own registers. -/

namespace Sys2Proof.Machine

/-- R40: `w_held := w_rs[SR]`. -/
def State.wHeld (s : State) : Bool := s.w.wRs.getLastD false

/-- R40: `r_held := r_rs[SR]`. -/
def State.rHeld (s : State) : Bool := s.r.rRs.getLastD false

/-- R34: `wq[S]`, the write domain's view of `head`, in gray form. -/
def State.wView (s : State) : Nat := s.w.wq.getLastD 0

/-- R37: `rq[S]`, the read domain's view of `tail`, in gray form. -/
def State.rView (s : State) : Nat := s.r.rq.getLastD 0

/-- R122: `arm_s[S]`. -/
def State.armView (s : State) : Bool := s.r.armS.getLastD false

/-- R89: `w_full := w_held || (gray_A(inc_A(wptr_bin)) == wq[S])`. -/
def State.wFull (s : State) : Bool := s.wHeld || gray (incPtr s.cfg s.w.wptrBin) == s.wView

/-- R97: `r_empty := r_held || (rptr_gray == rq[S])`. -/
def State.rEmpty (s : State) : Bool := s.rHeld || s.r.rptrGray == s.rView

/-- `(a - b) mod N` for two slot numbers (R91, R99). -/
def slotDiff (c : Config) (a b : Nat) : Nat := (a + c.slots - b) % c.slots

/-- R91: `w_level := (wptr_bin - bin_A(wq[S])) mod N`. Not a port. -/
def State.wLevel (s : State) : Nat := slotDiff s.cfg s.w.wptrBin (bin s.cfg.addrBits s.wView)

/-- R99: `r_level := (bin_A(rq[S]) - rptr_bin) mod N`. Not a port. -/
def State.rLevel (s : State) : Nat := slotDiff s.cfg (bin s.cfg.addrBits s.rView) s.r.rptrBin

end Sys2Proof.Machine
end

