-- ==== Sys2Proof/Machine/Operands.lean ====
section
/-! DEFINITION. What an operation's operands and slots stand for (30_encoding.md R76; R53): the record and the
modifier, the slot each port addresses, the record the read port presents, and the companion's periods. -/

namespace Sys2Proof.Machine

/-- R76, R51: the record operand is field `d`, stored bit for bit. -/
def recordOperand (d : Nat) : Nat := d

/-- R76: the modifier operand is field `m`, zero-extended when added; a natural number is its own zero extension. -/
def modifierOperand (m : Nat) : Nat := m

/-- R53, R93: the slot an enqueue addresses, `wptr_bin`. -/
def State.enqSlot (s : State) : Nat := s.w.wptrBin

/-- R53, R100: the slot the read port presents, `rptr_bin`. -/
def State.deqSlot (s : State) : Nat := s.r.rptrBin

/-- R17: the record listed for a slot, or none (`⊥`). -/
def Memory.read : Memory → Nat → Option Nat
  | [], _ => none
  | (a, v) :: rest, slot => if a = slot then some v else Memory.read rest slot

/-- R17: `slot` holds `v` from now on; the list stays in rising order, with no slot twice. -/
def Memory.write : Memory → Nat → Nat → Memory
  | [], slot, v => [(slot, v)]
  | (a, u) :: rest, slot, v =>
    if slot < a then (slot, v) :: (a, u) :: rest
    else if slot = a then (slot, v) :: rest
    else (a, u) :: Memory.write rest slot v

/-- Every slot of the list is above `slot`, and they rise strictly. -/
def Memory.risingAbove : Nat → Memory → Bool
  | _, [] => true
  | slot, (a, _) :: rest => decide (slot < a) && Memory.risingAbove a rest

/-- The canonical form: slots rise strictly. No listed record can equal what an unlisted slot reads as, since an
unlisted slot reads as none. -/
def Memory.wf : Memory → Bool
  | [] => true
  | (a, _) :: rest => Memory.risingAbove a rest

/-- A free value cut to a `W`-bit record (R100: "every `W`-bit value"). -/
def asRecord (c : Config) (v : Nat) : Nat := v % 2 ^ c.dataBits

/-- R45: the record a slot is specified to hold: the one written to it since the last reset assertion, if any. -/
def State.slotContent (s : State) (slot : Nat) : Option Nat := if slot ∈ s.stale then none else s.mem.read slot

/-- R45, R50: the free value a slot presents while its content is unspecified: one for `⊥` (log 6), one for a record
kept through a reset assertion (log 7). -/
def State.unspecifiedRecord (s : State) (slot : Nat) : Nat :=
  asRecord s.cfg
    (match s.mem.read slot with
    | some kept => Config.keptRecord slot kept
    | none => Config.powerUpRecord slot)

/-- R17, R45: the record a read of a slot presents. -/
def State.slotRecord (s : State) (slot : Nat) : Nat := (s.slotContent slot).getD (s.unspecifiedRecord slot)

/-- R100: the data output: first word fall through while not empty, a free value of the step while empty (log 5). -/
def State.rData (s : State) : Nat :=
  if s.rEmpty then asRecord s.cfg (Config.freeRecord s.env.drawIndex) else s.slotRecord s.deqSlot

/-- R125: `per = zext_{P+1}(consume_every) + zext_{P+1}(rc_modifier)`. -/
def effectivePeriod (consumeEvery m : Nat) : Nat := consumeEvery + modifierOperand m

/-- R126: `sat_P(consume_every + 1)`. -/
def nextConsumeEvery (c : Config) (consumeEvery : Nat) : Nat := sat c.periodBits (consumeEvery + 1)

/-- R126: `cycle + 1`, in the register's `P + 1` bits (R15; log 16). -/
def nextCycle (c : Config) (cycle : Nat) : Nat := incMod (c.periodBits + 1) cycle

/-- R18, R110: whether this step draws the old value at a first stage (log 4). -/
def State.drawsOld (s : State) (site : Site) : Bool :=
  match s.env.draws.choice site with
  | .old => true
  | .new => false
  | .free => Config.freeDraw site s.env.drawIndex

end Sys2Proof.Machine
end

