-- ==== Sys2Proof/Syntax.lean ====
section
/-! DEFINITION. The operations of the block (30_encoding.md R77, R78, R79): one constructor per row of the opcode
table, with the fields of its word that its format gives it. -/

namespace Sys2Proof

/-- The nine operations. `d` is the WE word's record field, `m` the RE word's modifier field (R73, R74); an operation
that ignores its field still carries it, so that no bit of a word is lost (R76; the model's choice, log 23). -/
inductive Instr where
  /-- W_NOP (R92) -/
  | wNop (d : Nat)
  /-- W_ENQ (R93) -/
  | wEnq (d : Nat)
  /-- W_ARM (R120) -/
  | wArm (d : Nat)
  /-- W_ENQ_ARM (R121) -/
  | wEnqArm (d : Nat)
  /-- R_NOP (R101) -/
  | rNop (m : Nat)
  /-- R_DEQ (R102) -/
  | rDeq (m : Nat)
  /-- RC_TICK (R126) -/
  | rcTick (m : Nat)
  /-- RESET_ASSERT (R150) -/
  | resetAssert
  /-- RESET_DEASSERT (R151) -/
  | resetDeassert
deriving DecidableEq, Repr

/-- R72: the kind of step an operation is, and so its word's format. -/
def Instr.format : Instr → Format
  | .wNop _ => .we
  | .wEnq _ => .we
  | .wArm _ => .we
  | .wEnqArm _ => .we
  | .rNop _ => .re
  | .rDeq _ => .re
  | .rcTick _ => .re
  | .resetAssert => .sy
  | .resetDeassert => .sy

/-- The operation's name in the opcode table. -/
def Instr.mnemonic : Instr → String
  | .wNop _ => "W_NOP"
  | .wEnq _ => "W_ENQ"
  | .wArm _ => "W_ARM"
  | .wEnqArm _ => "W_ENQ_ARM"
  | .rNop _ => "R_NOP"
  | .rDeq _ => "R_DEQ"
  | .rcTick _ => "RC_TICK"
  | .resetAssert => "RESET_ASSERT"
  | .resetDeassert => "RESET_DEASSERT"

end Sys2Proof
end

