-- ==== Sys2Proof/WellFormed.lean ====
section
/-! DEFINITION. Which operations an instance can be presented with: the word's width (R72) and the tied fields (R82). -/

namespace Sys2Proof

/-- R73, R74: the operand field has its format's width. -/
def Instr.fitsFormat (c : Config) : Instr → Bool
  | .wNop d => fits c.dataBits d
  | .wEnq d => fits c.dataBits d
  | .wArm d => fits c.dataBits d
  | .wEnqArm d => fits c.dataBits d
  | .rNop m => fits c.periodBits m
  | .rDeq m => fits c.periodBits m
  | .rcTick m => fits c.periodBits m
  | .resetAssert => true
  | .resetDeassert => true

/-- R82: no field that the instance ties to 0 carries a 1. With `HAS_RC = 0` the tied fields are `a`, `t` and `m`; with
`HAS_RC = 1` it is the `e` of an RE word. -/
def Instr.portsPresent (c : Config) : Instr → Bool
  | .wNop _ => true
  | .wEnq _ => true
  | .wArm _ => c.hasRc
  | .wEnqArm _ => c.hasRc
  | .rNop m => c.hasRc || m == 0
  | .rDeq m => !c.hasRc && m == 0
  | .rcTick _ => c.hasRc
  | .resetAssert => true
  | .resetDeassert => true

/-- An operation the instance `c` can be presented with. -/
def Instr.wellFormed (c : Config) (i : Instr) : Bool := i.fitsFormat c && i.portsPresent c

end Sys2Proof
end

