-- ==== Sys2Proof/Machine/Ops.lean ====
section
/-! DEFINITION. The named operations every meaning is made of. An operation of one edge takes the pre-edge state `pre`,
from which it reads, and the state `post` the edge has built so far, to which it writes: R16's registers that read
pre-edge values and are written together. -/

namespace Sys2Proof.Machine

/-- R19, R135 to R137, R141: raising a misuse condition, the one operation by which an exception is taken. It sets the
offending domain's sticky flag, and the condition goes on the model's log (R138; log 9). Nothing is saved, nothing is
entered, and so nothing returns (R142). -/
def raise (m : Misuse) (post : State) : State :=
  match m with
  | .overflow => { post with w.wOvf := true, g.misuses := post.g.misuses ++ [.overflow] }
  | .underflow => { post with r.rUdf := true, g.misuses := post.g.misuses ++ [.underflow] }

/-- R138: the cause codes of the model's event log. -/
def Misuse.code : Misuse → Nat
  | .overflow => 1
  | .underflow => 2

/-- R40, R88: one edge of the write domain's reset synchroniser. -/
def shiftWRs (pre post : State) : State := { post with w.wRs := shiftIn pre.rstIn pre.w.wRs }

/-- R40, R96: one edge of the read domain's reset synchroniser. -/
def shiftRRs (pre post : State) : State := { post with r.rRs := shiftIn pre.rstIn pre.r.rRs }

/-- R112: `SyncR2W()`. -/
def syncR2W (pre post : State) : State :=
  { post with
    w.wq := shiftIn (capture pre.r.rptrGray pre.x.rgrayPrev pre.x.rgrayDirty (pre.drawsOld .wq1)) pre.w.wq
    x.rgrayDirty := false }

/-- R111: `SyncW2R()`. -/
def syncW2R (pre post : State) : State :=
  { post with
    r.rq := shiftIn (capture pre.w.wptrGray pre.x.wgrayPrev pre.x.wgrayDirty (pre.drawsOld .rq1)) pre.r.rq
    x.wgrayDirty := false }

/-- R120: `ArmSample(a)`. -/
def armSample (a : Bool) (pre post : State) : State :=
  if a = pre.w.armQ then post
  else { post with w.armQ := a, x.armPrev := pre.w.armQ, x.armDirty := true }

/-- R122: `ArmSync()`. -/
def armSync (pre post : State) : State :=
  { post with
    r.armS := shiftIn (capture pre.w.armQ pre.x.armPrev pre.x.armDirty (pre.drawsOld .as1)) pre.r.armS
    x.armDirty := false }

/-- R123: `EnableUpdate()` but for the underrun's clear, which the operation step writes after it (R96). -/
def enableUpdate (pre post : State) : State := { post with r.enable := pre.r.enable || pre.armView }

/-- R127: `ReportDefault()`; `RC_TICK` writes 1 after it (R96). -/
def reportDefault (_pre post : State) : State := { post with r.rptValid := false }

/-- R93: an accepted enqueue of the record `d`. -/
def acceptRecord (d : Nat) (pre post : State) : State :=
  { post with
    mem := pre.mem.write pre.enqSlot (recordOperand d)
    stale := pre.stale.filter (· ≠ pre.enqSlot)
    w.wptrBin := incPtr pre.cfg pre.w.wptrBin
    w.wptrGray := gray (incPtr pre.cfg pre.w.wptrBin)
    x.wgrayPrev := pre.w.wptrGray
    x.wgrayDirty := true
    g.enqCount := pre.g.enqCount + 1
    g.accepted := pre.g.accepted ++ [recordOperand d] }

/-- R93: the operation step of `W_ENQ`: accepted, or rejected with `Overflow`. -/
def enqueue (d : Nat) (pre post : State) : State :=
  if pre.wFull then raise .overflow post else acceptRecord d pre post

/-- R102, R126: an accepted dequeue. The record consumed is the one `r_data` presents before the edge. -/
def consumeRecord (pre post : State) : State :=
  { post with
    r.rptrBin := incPtr pre.cfg pre.r.rptrBin
    r.rptrGray := gray (incPtr pre.cfg pre.r.rptrBin)
    x.rgrayPrev := pre.r.rptrGray
    x.rgrayDirty := true
    g.deqCount := pre.g.deqCount + 1
    g.consumed := pre.g.consumed ++ [pre.rData] }

/-- R102: the operation step of `R_DEQ`: accepted, or rejected with `Underflow`. -/
def dequeue (pre post : State) : State :=
  if pre.rEmpty then raise .underflow post else consumeRecord pre post

/-- The empty operation step of `W_NOP`, `W_ARM` and `R_NOP` (R92, R120, R101). -/
def noOperation (_pre post : State) : State := post

/-- R88: the frame of every W-edge, with the arm level `a` and the operation step `op`. -/
def wEdge (a : Bool) (op : State → State → State) (s : State) : State :=
  if s.wHeld then shiftWRs s s
  else op s (if s.cfg.hasRc then armSample a s (syncR2W s (shiftWRs s s)) else syncR2W s (shiftWRs s s))

/-- R96: the companion's share of the frame of an R-edge. -/
def companionFrame (pre post : State) : State :=
  if pre.cfg.hasRc then reportDefault pre (enableUpdate pre (armSync pre post)) else post

/-- R96: the frame of every R-edge, with the operation step `op`. -/
def rEdge (op : State → State → State) (s : State) : State :=
  if s.rHeld then shiftRRs s s
  else op s (companionFrame s (syncW2R s (shiftRRs s s)))

/-- R81, R82, R20: an operation the instance cannot be presented with is refused, and is no step; any other completes
with the state `next`. -/
def perform (i : Instr) (s next : State) : Host.Outcome State Fault Refusal :=
  if !i.fitsFormat s.cfg then .refused .wordTooWide
  else if !i.portsPresent s.cfg then .refused .absentPort
  else .next next

end Sys2Proof.Machine
end

