-- ==== Sys2Proof/Machine/RateController.lean ====
section
/-! DEFINITION. The companion rate controller and the arm (43_rate_controller.md §1, §2). -/

namespace Sys2Proof.Machine

/-- R120: `W_ARM`: the frame with `ArmSample(1)` and an empty operation step. -/
def execWArm (d : Nat) (s : State) : Host.Outcome State Fault Refusal :=
  perform (.wArm d) s (wEdge true noOperation s)

/-- R121: `W_ENQ_ARM`: the frame with `ArmSample(1)`, then the operation step of `W_ENQ`. -/
def execWEnqArm (d : Nat) (s : State) : Host.Outcome State Fault Refusal :=
  perform (.wEnqArm d) s (wEdge true (enqueue d) s)

/-- R126, R127: the drain branch: one record is consumed and reported with the period that elapsed. -/
def drain (m : Nat) (pre post : State) : State :=
  { consumeRecord pre post with
    r := { (consumeRecord pre post).r with
      cycle := 0, rptValid := true, rptKind := .drain, rptData := pre.rData,
      rptPeriod := effectivePeriod pre.r.consumeEvery m } }

/-- R126, R131: the underrun branch: the period grows by one, saturating, and the flag falls. Its clear of `enable` wins
over a set of the same edge (R123). -/
def underrun (m : Nat) (pre post : State) : State :=
  { post with
    r.cycle := 0
    r.consumeEvery := nextConsumeEvery pre.cfg pre.r.consumeEvery
    r.enable := false
    r.rptValid := true
    r.rptKind := .underrun
    r.rptPeriod := effectivePeriod (nextConsumeEvery pre.cfg pre.r.consumeEvery) m }

/-- R126: the operation step of `RC_TICK`. -/
def tick (m : Nat) (pre post : State) : State :=
  if !pre.r.enable then post
  else if nextCycle pre.cfg pre.r.cycle < effectivePeriod pre.r.consumeEvery m then
    { post with r.cycle := nextCycle pre.cfg pre.r.cycle }
  else if !pre.rEmpty then drain m pre post
  else underrun m pre post

/-- R126: `RC_TICK`, one timer tick. -/
def execRcTick (m : Nat) (s : State) : Host.Outcome State Fault Refusal :=
  perform (.rcTick m) s (rEdge (tick m) s)

end Sys2Proof.Machine
end

