-- ==== Sys2Proof/Machine/ReadPort.lean ====
section
/-! DEFINITION. The operations of the read port (41_read_port.md §3). -/

namespace Sys2Proof.Machine

/-- R101: `R_NOP`, only the frame of R96. -/
def execRNop (m : Nat) (s : State) : Host.Outcome State Fault Refusal :=
  perform (.rNop m) s (rEdge noOperation s)

/-- R102: `R_DEQ`, dequeue one record; present only with `HAS_RC = 0`. -/
def execRDeq (m : Nat) (s : State) : Host.Outcome State Fault Refusal :=
  perform (.rDeq m) s (rEdge dequeue s)

end Sys2Proof.Machine
end

