-- ==== Sys2Proof/Machine/Reset.lean ====
section
/-! DEFINITION. The reset events (70_reset_and_hazards.md §1). -/

namespace Sys2Proof.Machine

/-- R150, R49: every register of both domains, of the companion and of the model-only fields takes its reset value; the
ghost counters and traces restart; the storage keeps what it holds, unspecified from now on (R45; log 7). The reference
producer, which is not part of the block, starts again at record 0 (R132; log 13). -/
def resetAll (s : State) : State :=
  { s with
    w := WriteDomain.afterReset s.cfg
    r := ReadDomain.afterReset s.cfg
    stale := s.mem.map Prod.fst
    x := Crossing.afterReset
    g := Observation.afterReset
    rstIn := true
    env.producer := Producer.afterReset }

/-- R150: `RESET_ASSERT`. -/
def execResetAssert (s : State) : Host.Outcome State Fault Refusal :=
  perform .resetAssert s (resetAll s)

/-- R151: `RESET_DEASSERT` sets `rst_in <- 0` and changes nothing else. -/
def execResetDeassert (s : State) : Host.Outcome State Fault Refusal :=
  perform .resetDeassert s { s with rstIn := false }

end Sys2Proof.Machine
end

