-- ==== Sys2Proof/Machine/WritePort.lean ====
section
/-! DEFINITION. The operations of the write port that every instance has (40_write_port.md §3). -/

namespace Sys2Proof.Machine

/-- R92: `W_NOP`, only the frame of R88. `w_arm` is 0. -/
def execWNop (d : Nat) (s : State) : Host.Outcome State Fault Refusal :=
  perform (.wNop d) s (wEdge false noOperation s)

/-- R93: `W_ENQ`, enqueue one record. `w_arm` is 0. -/
def execWEnq (d : Nat) (s : State) : Host.Outcome State Fault Refusal :=
  perform (.wEnq d) s (wEdge false (enqueue d) s)

end Sys2Proof.Machine
end

