-- ==== Sys2Proof/Machine/Dispatch.lean ====
section
/-! DEFINITION. One arm per operation of the opcode table. -/

namespace Sys2Proof.Machine

def exec (i : Instr) (s : State) : Host.Outcome State Fault Refusal :=
  match i with
  | .wNop d => Sys2Proof.Machine.execWNop d s
  | .wEnq d => Sys2Proof.Machine.execWEnq d s
  | .wArm d => Sys2Proof.Machine.execWArm d s
  | .wEnqArm d => Sys2Proof.Machine.execWEnqArm d s
  | .rNop m => Sys2Proof.Machine.execRNop m s
  | .rDeq m => Sys2Proof.Machine.execRDeq m s
  | .rcTick m => Sys2Proof.Machine.execRcTick m s
  | .resetAssert => Sys2Proof.Machine.execResetAssert s
  | .resetDeassert => Sys2Proof.Machine.execResetDeassert s

end Sys2Proof.Machine
end

