-- ==== Sys2Proof/Decode.lean ====
section
/-! DEFINITION. From sample words to operations and back (30_encoding.md R72 to R85): the decoder, total on every word,
and after it the encoder. -/

namespace Sys2Proof

/-- Why a word has no meaning. -/
inductive DecodeError where
  /-- the word has a 1 above its format's width, where no port exists (R72; log 11) -/
  | wordTooWide
  /-- `t = 1` and `e = 1` in an RE word (R81) -/
  | twoConsumers
  /-- a 1 in a field the instance ties to 0 (R82) -/
  | absentPort
deriving DecidableEq, Repr

/-- `v[width-1:0]` (R14): the operand field of a word, taken with no extension, scaling or shift (R76). -/
def operandField (width : Nat) (word : Nat) : Nat := word % 2 ^ width

/-- R73, R77: the fields `d = [W-1:0]`, `e = [W]`, `a = [W+1]`, and the operation `{a, e}` selects. -/
def decodeWe (c : Config) (word : Nat) : Instr :=
  match word.testBit (c.dataBits + 1), word.testBit c.dataBits with
  | false, false => .wNop (operandField c.dataBits word)
  | false, true => .wEnq (operandField c.dataBits word)
  | true, false => .wArm (operandField c.dataBits word)
  | true, true => .wEnqArm (operandField c.dataBits word)

/-- R74, R78: the fields `m = [P-1:0]`, `e = [P]`, `t = [P+1]`, and the operation `{t, e}` selects; `t = e = 1` is
reserved (R81). -/
def decodeRe (c : Config) (word : Nat) : Except DecodeError Instr :=
  match word.testBit (c.periodBits + 1), word.testBit c.periodBits with
  | false, false => .ok (.rNop (operandField c.periodBits word))
  | false, true => .ok (.rDeq (operandField c.periodBits word))
  | true, false => .ok (.rcTick (operandField c.periodBits word))
  | true, true => .error .twoConsumers

/-- R75, R79: bit 0 is the new level of `rst`. -/
def decodeSy (word : Nat) : Instr := if word.testBit 0 then .resetAssert else .resetDeassert

/-- The operation a word of a format selects, its tied fields not yet looked at. -/
def decodeFields (c : Config) (f : Format) (word : Nat) : Except DecodeError Instr :=
  match f with
  | .we => .ok (decodeWe c word)
  | .re => decodeRe c word
  | .sy => .ok (decodeSy word)

/-- R82: a word with a 1 in a tied field is refused. -/
def requirePorts (c : Config) (i : Instr) : Except DecodeError Instr :=
  if i.portsPresent c then .ok i else .error .absentPort

/-- The decoder: the word's width, then the reserved combination, then the tied fields (R96 tests the reserved
combination first; `95_test_vectors.md` ENC-10). It never reads the state (R80). -/
def decode (c : Config) (f : Format) (word : Nat) : Except DecodeError Instr :=
  if fits (f.width c) word then
    match decodeFields c f word with
    | .ok i => requirePorts c i
    | .error e => .error e
  else .error .wordTooWide

/-- A word and the format it belongs to. -/
structure Sample where
  fmt : Format
  word : Nat
deriving DecidableEq, Repr

/-- The encoder, from R73, R74, R75 and the maps R77, R78, R79. -/
def encode (c : Config) : Instr → Sample
  | .wNop d => ⟨.we, d⟩
  | .wEnq d => ⟨.we, 2 ^ c.dataBits + d⟩
  | .wArm d => ⟨.we, 2 ^ (c.dataBits + 1) + d⟩
  | .wEnqArm d => ⟨.we, 2 ^ (c.dataBits + 1) + 2 ^ c.dataBits + d⟩
  | .rNop m => ⟨.re, m⟩
  | .rDeq m => ⟨.re, 2 ^ c.periodBits + m⟩
  | .rcTick m => ⟨.re, 2 ^ (c.periodBits + 1) + m⟩
  | .resetAssert => ⟨.sy, 1⟩
  | .resetDeassert => ⟨.sy, 0⟩

/-- The format of an opcode-table row from its number of bits, in bits or in whole bytes: 26 or 32 for WE, 18 or 24 for
RE, 1 or 8 for SY (log 15). -/
def formatOfBits (nbits : Nat) : Option Format :=
  if nbits = 26 ∨ nbits = 32 then some .we
  else if nbits = 18 ∨ nbits = 24 then some .re
  else if nbits = 1 ∨ nbits = 8 then some .sy
  else none

/-- The `HAS_RC` of an instance like `c` in which the word has a meaning: `c`'s own where it has one, else the other
value (R77, R78: `R_DEQ` occurs only with `HAS_RC = 0`, an arm or a tick only with `HAS_RC = 1`). -/
def instanceFor (c : Config) (f : Format) (word : Nat) : Bool :=
  match decode c f word with
  | .ok _ => c.hasRc
  | .error _ =>
    match decode { c with hasRc := !c.hasRc } f word with
    | .ok _ => !c.hasRc
    | .error _ => c.hasRc

/-- The operation the decoder reads from a word of the opcode table, in the reference instance with the companion or
without it, whichever has the word's ports (log 2, log 15). -/
def decodeTableWord (nbits w : Nat) : Option Instr :=
  match formatOfBits nbits with
  | none => none
  | some f =>
    match decode { Config.reference with hasRc := instanceFor Config.reference f w } f w with
    | .ok i => some i
    | .error _ => none

end Sys2Proof
end

