-- ==== Sys2Proof/Machine/Script.lean ====
section
/-! DEFINITION. The stimulus script (30_encoding.md §6: R86, R87) and the reference producer
(43_rate_controller.md §4: R132 to R134), clients of the block. -/

namespace Sys2Proof.Machine

/-- R86: the sample word of a line's operation. R86 and R87 do not say what a line with an operand wider than its field
presents; the model's choice is a word wider than the format, which is refused as `wordTooWide` (log 11, log 21). -/
def lineWord (c : Config) (i : Instr) : Nat := if i.fitsFormat c then (encode c i).word else 2 ^ i.format.width c

/-- R86: the line that presents an operation, with its draw choices. -/
def lineOf (c : Config) (i : Instr) (draws : Draws) : Line := .sample i.format (lineWord c i) draws

/-- R86: a line with no draw choice; "An absent choice means `new`." -/
def plainLine (c : Config) (i : Instr) : Line := lineOf c i Draws.allNew

/-- R87: an interleaving of `w` W-edges and `r` R-edges that follows `order` as long as it can (log 14). -/
def interleave : List Domain → Nat → Nat → List Domain
  | [], w, r => List.replicate w .write ++ List.replicate r .read
  | .write :: order, w + 1, r => .write :: interleave order w r
  | .write :: order, 0, r => interleave order 0 r
  | .read :: order, w, r + 1 => .read :: interleave order w r
  | .read :: order, w, 0 => interleave order w 0

/-- The idle operation of a domain (R92, R101). -/
def idleOf : Domain → Instr
  | .write => .wNop 0
  | .read => .rNop 0

/-- R87: whether `PUSH_ARM` still arms: while `w_full = 1`. `PUSH_ARM` is only for `HAS_RC = 1`; what it does without the
companion the spec does not say, and the model's choice is that it always presents `W_ARM`, which is refused as
`absentPort` (R82; log 21). -/
def State.pushArmWaits (s : State) : Bool := s.wFull || !s.cfg.hasRc

/-- R87: what a pseudo-operation presents in a state, and what stands in its place afterwards; none when it is over. A
record wider than `W` bits, and `PUSH_ARM` without the companion, are refused (log 21). While it waits it stays in place, so that no line of the other
domain falls between its lines: the model's choice (log 25). -/
def Pseudo.next (s : State) : Pseudo → Option (Line × List Stimulus)
  | .push v =>
    if s.wFull then some (plainLine s.cfg (.wNop 0), [.pseudo (.push v)]) else some (plainLine s.cfg (.wEnq v), [])
  | .pushArm v =>
    if s.pushArmWaits then some (plainLine s.cfg (.wArm 0), [.pseudo (.pushArm v)])
    else some (plainLine s.cfg (.wEnq v), [])
  | .pop =>
    if s.rEmpty then some (plainLine s.cfg (.rNop 0), [.pseudo .pop]) else some (plainLine s.cfg (.rDeq 0), [])
  | .wIdle 0 => none
  | .wIdle (n + 1) => some (plainLine s.cfg (.wNop 0), [.pseudo (.wIdle n)])
  | .rIdle 0 => none
  | .rIdle (n + 1) => some (plainLine s.cfg (.rNop 0), [.pseudo (.rIdle n)])
  | .reset order =>
    some (plainLine s.cfg .resetAssert,
      .line (plainLine s.cfg .resetDeassert) ::
        (interleave order s.cfg.rstStages s.cfg.rstStages).map fun dom => .line (plainLine s.cfg (idleOf dom)))
  | .rSettle => some (plainLine s.cfg (.rNop 0), [.pseudo (.rIdle s.cfg.syncStages)])
  | .wSettle => some (plainLine s.cfg (.wNop 0), [.pseudo (.wIdle s.cfg.syncStages)])

/-- R133: the operation the reference producer presents at a W-edge: `W_NOP` while its delay lasts, then as `PUSH_ARM`
of its next record, which is only for `HAS_RC = 1` (log 21). -/
def Producer.offer (s : State) (p : Producer) : Instr :=
  if p.delay ≠ 0 then .wNop 0
  else if s.pushArmWaits then .wArm 0
  else .wEnq p.next

/-- R132, R133, R134: the reference producer after that edge. The delay drawn is a member of `0 .. K-1`: a number of the
script, taken modulo `K` (the model's way of drawing it, log 13). -/
def Producer.advance (s : State) (delayDraw : Nat) (p : Producer) : Producer :=
  if p.delay ≠ 0 then { p with delay := p.delay - 1 }
  else if s.pushArmWaits then p
  else { next := incMod s.cfg.dataBits p.next, delay := delayDraw % s.cfg.delayBound }

/-- A character's text, for the two brackets the script syntax puts around draw choices. -/
def charText (code : Nat) : String := String.singleton (Char.ofNat code)

/-- R86: a number in hexadecimal. -/
def hexText (v : Nat) : String := "0x" ++ String.ofList (Nat.toDigits 16 v)

/-- R86: the draw choices at the end of a line, "absent choice means `new`". R86 has no text for the model's own choice
`free`; it is written as an absent one, the model's choice (log 22). -/
def drawsText (d : Draws) : String :=
  let open1 := " " ++ charText 123
  let close1 := charText 125
  (if d.rq1 = .old then open1 ++ "rq1=old" ++ close1 else "") ++
    (if d.wq1 = .old then open1 ++ "wq1=old" ++ close1 else "") ++
    (if d.as1 = .old then open1 ++ "as1=old" ++ close1 else "")

/-- R86: a script line as the spec writes it. R86 does not say how a line is written whose ignored field is not 0; the
model's choice is to leave out the `d` of `W_NOP` and `W_ARM` and the `m` of `R_NOP`, so that the text stands for the
same operation with that field 0 (log 22). -/
def scriptText (i : Instr) (d : Draws) : String :=
  (match i with
  | .wNop _ => "W W_NOP"
  | .wEnq r => "W W_ENQ d=" ++ hexText r
  | .wArm _ => "W W_ARM"
  | .wEnqArm r => "W W_ENQ_ARM d=" ++ hexText r
  | .rNop _ => "R R_NOP"
  | .rDeq _ => "R R_DEQ"
  | .rcTick m => "R RC_TICK m=" ++ toString m
  | .resetAssert => "RESET_ASSERT"
  | .resetDeassert => "RESET_DEASSERT") ++ drawsText d

/-- R52: the packing of the reference record, `f0` in bits `[23:16]`, `f1` in `[15:8]`, `f2` in `[7:0]`. -/
def packRecord (f0 f1 f2 : BitVec 8) : BitVec 24 := f0 ++ f1 ++ f2

end Sys2Proof.Machine
end

