-- ==== Sys2Proof/Machine/Fetch.lean ====
section
/-! DEFINITION. What the environment presents next: the head of the script, or the free schedule of Config when the
script has run out (log 3). -/

namespace Sys2Proof.Machine

/-- The first line a script presents in a state, the script left after it, and the reference producer after it. A
pseudo-operation that is over presents nothing and is passed by. R87 says "in any interleaving" of `RESET` alone; whether
lines of the other domain may fall between the lines of any other expansion it does not say. The model's choice is that
none does: what a pseudo-operation still has to present stands at the head of the script (log 25). -/
def nextLine (s : State) : List Stimulus → Option (Line × List Stimulus × Producer)
  | [] => none
  | .line l :: rest => some (l, rest, s.env.producer)
  | .producerEdge delayDraw draws :: rest =>
    some (lineOf s.cfg (s.env.producer.offer s) draws, rest, s.env.producer.advance s delayDraw)
  | .pseudo p :: rest =>
    match p.next s with
    | some (l, now) => some (l, now ++ rest, s.env.producer)
    | none => nextLine s rest

/-- The line of this step, and what is left of the script and the producer. -/
def State.presented (s : State) : Line × List Stimulus × Producer :=
  (nextLine s s.env.inputs).getD (Config.schedule s.env.drawIndex, [], s.env.producer)

/-- The draw choices a line carries. -/
def lineDraws : Line → Draws
  | .sample _ _ d => d
  | .partialReset _ => Draws.allFree

/-- The state in which the presented line is run: the line taken from the script, its draw choices in force, and the
counter of the free values moved on. Only the environment's side changes. -/
def State.loaded (s : State) : State :=
  { s with
    env := {
      inputs := s.presented.2.1
      producer := s.presented.2.2
      draws := lineDraws s.presented.1
      drawIndex := s.env.drawIndex + 1 } }

/-- The state with one word put at the head of the script, every draw free; the instance is the one in which the word
has its ports (log 2). -/
def placeWord (s : State) (f : Format) (word : Nat) : State :=
  { s with
    cfg.hasRc := instanceFor s.cfg f word
    env.inputs := .line (.sample f word Draws.allFree) :: s.env.inputs }

/-- The refusal that a decoder's answer stands for. -/
def refusalOf : DecodeError → Refusal
  | .wordTooWide => .wordTooWide
  | .twoConsumers => .twoConsumers
  | .absentPort => .absentPort

end Sys2Proof.Machine
end

