-- ==== Sys2Proof/Machine/Step.lean ====
section
/-! DEFINITION. One step (00_scope.md R22): the line the environment presents is decoded and run. -/

namespace Sys2Proof.Machine

/-- Runs a line in the state it was loaded into. R20: a refused word is no step; a reset of one domain alone faults
(R154). -/
def runLine (l : Line) (s : State) : Host.Outcome State Fault Refusal :=
  match l with
  | .partialReset _ => .fault .partialReset
  | .sample f word _ =>
    match decode s.cfg f word with
    | .ok i => exec i s
    | .error e => .refused (refusalOf e)

/-- R22: one edge of one domain or one reset event, as the environment presents it. -/
def step (s : State) : Host.Outcome State Fault Refusal := runLine s.presented.1 s.loaded

/-- The state whose very next step runs a word of the opcode table: the word is the next line of the script, in the
instance that has its ports (log 2, log 3, log 15). A number of bits that is no format's changes nothing. -/
def State.withFetchWord (s : State) (nbits w : Nat) : State :=
  match formatOfBits nbits with
  | some f => placeWord s f w
  | none => s

end Sys2Proof.Machine
end

