-- ==== Sys2Proof/Machine/Ports.lean ====
section
/-! DEFINITION. The output ports (10_state.md R44; R95, R103, R127): functions of State, read without side effect (R57). -/

namespace Sys2Proof.Machine

/-- The write domain's outputs (R95). -/
structure WritePorts where
  wFull : Bool
  wOvf : Bool
deriving DecidableEq, Repr

/-- The companion's report outputs (R127). -/
structure ReportPorts where
  rptValid : Bool
  rptKind : ReportKind
  rptData : Nat
  rptPeriod : Nat
deriving DecidableEq, Repr

/-- The read domain's outputs (R103); the report outputs are present only with `HAS_RC = 1` (R44). -/
structure ReadPorts where
  rData : Nat
  rEmpty : Bool
  rUdf : Bool
  report : Option ReportPorts
deriving DecidableEq, Repr

/-- R95. -/
def State.writePorts (s : State) : WritePorts := { wFull := s.wFull, wOvf := s.w.wOvf }

/-- R103, R127. -/
def State.readPorts (s : State) : ReadPorts :=
  { rData := s.rData, rEmpty := s.rEmpty, rUdf := s.r.rUdf,
    report := if s.cfg.hasRc then some ⟨s.r.rptValid, s.r.rptKind, s.r.rptData, s.r.rptPeriod⟩ else none }

end Sys2Proof.Machine
end

