-- ==== Sys2Proof/Safety.lean ====
section
/-! DEFINITION. What counts as a safe run: runs under every schedule and every draw, the well-formedness of a state, the
ring invariant (42_pointer_sync.md R117), the reset invariant, and the terms the statements use. -/

namespace Sys2Proof.Machine

/-! ### Runs -/

/-- R22, R104: a run under a free schedule: the operations `is`, in order, each executed with an environment (its draws
among them) that nothing constrains. -/
inductive Run : State → List Instr → State → Prop where
  | done (s : State) : Run s [] s
  | more {s t u : State} {i : Instr} {is : List Instr} (e : Environment)
      (first : exec i { s with env := e } = .next t) (rest : Run t is u) : Run s (i :: is) u

/-- A run of W-edges, R-edges and deassertions: no `RESET_ASSERT` in it. -/
def NoReset (is : List Instr) : Prop := Instr.resetAssert ∉ is

/-- The W-edges of a run. -/
def wEdges (is : List Instr) : Nat := is.countP fun i => i.format == .we

/-- The R-edges of a run. -/
def rEdges (is : List Instr) : Nat := is.countP fun i => i.format == .re

/-- R152: the write domain is released for good: `rst` is low and no stage of its reset synchroniser is 1. -/
def State.WriteReleased (s : State) : Prop := s.rstIn = false ∧ ∀ b ∈ s.w.wRs, b = false

/-- R152: the read domain is released for good. -/
def State.ReadReleased (s : State) : Prop := s.rstIn = false ∧ ∀ b ∈ s.r.rRs, b = false

/-- The launch state of R155 with both domains released, as after R156's boot order. -/
def State.released (c : Config) : State :=
  { State.launch c with
    rstIn := false
    w.wRs := List.replicate c.rstStages false
    r.rRs := List.replicate c.rstStages false }

/-! ### Widths -/

/-- Every register of the state has the width, and every chain the length, that its instance declares (R32 to R40, R46,
R47), the storage is canonical and holds only slots and records of the instance (R45, R53), only slots that hold a
record are stale, and without the companion its registers stand at their reset values (R44; log 8). -/
structure State.Wf (s : State) : Prop where
  cfg : s.cfg.wf = true
  wptrBin : s.w.wptrBin < s.cfg.slots
  wptrGray : s.w.wptrGray < s.cfg.slots
  wqLength : s.w.wq.length = s.cfg.syncStages
  wq : ∀ v ∈ s.w.wq, v < s.cfg.slots
  wRsLength : s.w.wRs.length = s.cfg.rstStages
  rptrBin : s.r.rptrBin < s.cfg.slots
  rptrGray : s.r.rptrGray < s.cfg.slots
  rqLength : s.r.rq.length = s.cfg.syncStages
  rq : ∀ v ∈ s.r.rq, v < s.cfg.slots
  rRsLength : s.r.rRs.length = s.cfg.rstStages
  armSLength : s.r.armS.length = s.cfg.syncStages
  cycle : s.r.cycle < 2 ^ (s.cfg.periodBits + 1)
  consumeEveryPos : 1 ≤ s.r.consumeEvery
  consumeEvery : s.r.consumeEvery < 2 ^ s.cfg.periodBits
  rptData : s.r.rptData < 2 ^ s.cfg.dataBits
  rptPeriod : s.r.rptPeriod < 2 ^ (s.cfg.periodBits + 1)
  wgrayPrev : s.x.wgrayPrev < s.cfg.slots
  rgrayPrev : s.x.rgrayPrev < s.cfg.slots
  memCanonical : s.mem.wf = true
  memSlots : ∀ cell ∈ s.mem, cell.1 < s.cfg.slots
  memRecords : ∀ cell ∈ s.mem, cell.2 < 2 ^ s.cfg.dataBits
  staleRising : s.stale.Pairwise (· < ·)
  staleHeld : ∀ slot ∈ s.stale, s.mem.read slot ≠ none
  companionAbsent : s.cfg.hasRc = false →
    s.w.armQ = false ∧ (∀ b ∈ s.r.armS, b = false) ∧ s.r.enable = false ∧ s.r.cycle = 0 ∧ s.r.consumeEvery = 1 ∧
      s.r.rptValid = false ∧ s.r.rptKind = .drain ∧ s.r.rptData = 0 ∧ s.r.rptPeriod = 0 ∧ s.x.armDirty = false

/-! ### Reset -/

/-- R150, R152, R113: a reset synchroniser is zeros followed by ones, all ones while `rst` is high; a held domain's other
registers stand at their reset values. -/
structure HoldInv (s : State) : Prop where
  cfg : s.cfg.wf = true
  wChain : ∃ j ≤ s.cfg.rstStages, s.w.wRs = List.replicate j false ++ List.replicate (s.cfg.rstStages - j) true
  rChain : ∃ j ≤ s.cfg.rstStages, s.r.rRs = List.replicate j false ++ List.replicate (s.cfg.rstStages - j) true
  asserted : s.rstIn = true →
    s.w.wRs = List.replicate s.cfg.rstStages true ∧ s.r.rRs = List.replicate s.cfg.rstStages true
  wHeldAtReset : s.wHeld = true → s.w = { WriteDomain.afterReset s.cfg with wRs := s.w.wRs }
  rHeldAtReset : s.rHeld = true → s.r = { ReadDomain.afterReset s.cfg with rRs := s.r.rRs }

/-! ### The ring -/

/-- R115: the value a published pointer takes after `tag` accepted operations. -/
def tagGray (c : Config) (tag : Nat) : Nat := gray (tag % c.slots)

/-- R117, with `E = enq_count` and `D = deq_count`, and with the tags (R115) of the stages `wq[1..S]` and `rq[1..S]`
given as `wt` and `rt`. `H` is the last and least of `wt`, `T` of `rt`, so a bound on `H` or `T` from below is a bound
on every tag. -/
structure RingInv (s : State) (wt rt : List Nat) : Prop where
  cfg : s.cfg.wf = true
  /-- clause 1 -/
  wptrBin : s.w.wptrBin = s.g.enqCount % s.cfg.slots
  /-- clause 1 -/
  rptrBin : s.r.rptrBin = s.g.deqCount % s.cfg.slots
  /-- R33 -/
  wptrGray : s.w.wptrGray = tagGray s.cfg s.g.enqCount
  /-- R36 -/
  rptrGray : s.r.rptrGray = tagGray s.cfg s.g.deqCount
  wqLength : wt.length = s.cfg.syncStages
  rqLength : rt.length = s.cfg.syncStages
  /-- R114 -/
  wq : s.w.wq = wt.map (tagGray s.cfg)
  /-- R114 -/
  rq : s.r.rq = rt.map (tagGray s.cfg)
  /-- R115: `cnt(wq[S]) <= ... <= cnt(wq[1]) <= deq_count`; clause 2, `H <= D` -/
  wqOrder : (s.g.deqCount :: wt).Pairwise (· ≥ ·)
  /-- R115: `cnt(rq[S]) <= ... <= cnt(rq[1]) <= enq_count`; clause 2, `T <= E` -/
  rqOrder : (s.g.enqCount :: rt).Pairwise (· ≥ ·)
  /-- clause 2, `D <= T` -/
  seen : ∀ t ∈ rt, s.g.deqCount ≤ t
  /-- clause 3, `E - H <= N - 1` -/
  room : ∀ h ∈ wt, s.g.enqCount ≤ h + s.cfg.capacity
  /-- R104: one `Accepted` per accepted enqueue -/
  accepted : s.g.accepted.length = s.g.enqCount
  /-- R104, R64: the consumed trace is the first `D` of the accepted records -/
  consumed : s.g.consumed = s.g.accepted.take s.g.deqCount
  /-- clause 4 -/
  stored : ∀ i, s.g.deqCount ≤ i → i < s.g.enqCount → s.slotContent (i % s.cfg.slots) = s.g.accepted[i]?
  /-- clause 5 -/
  wgrayDirty : s.x.wgrayDirty = true →
    1 ≤ s.g.enqCount ∧ s.x.wgrayPrev = tagGray s.cfg (s.g.enqCount - 1) ∧ ∀ t ∈ rt, t ≤ s.g.enqCount - 1
  /-- clause 5 -/
  rgrayDirty : s.x.rgrayDirty = true →
    1 ≤ s.g.deqCount ∧ s.x.rgrayPrev = tagGray s.cfg (s.g.deqCount - 1) ∧ ∀ h ∈ wt, h ≤ s.g.deqCount - 1

/-- R117: some tags make the ring invariant hold. -/
def State.RingOk (s : State) : Prop := ∃ wt rt, RingInv s wt rt

/-- R117: `T = cnt(rq[S])`, from `r_level = T - D`. -/
def State.cntRq (s : State) : Nat := s.g.deqCount + s.rLevel

/-- R117: `H = cnt(wq[S])`, from `w_level = E - H`. -/
def State.cntWq (s : State) : Nat := s.g.enqCount - s.wLevel

/-- R104, R64: the records consumed are a prefix of the records accepted. -/
def State.FifoOrder (s : State) : Prop := s.g.consumed <+: s.g.accepted

/-! ### Edges -/

/-- R88's frame at an edge that is not held, written out register by register: the reset synchroniser, `SyncR2W`
(R112) and, with the companion, `ArmSample(a)` (R120). -/
def writeFrame (a : Bool) (s : State) : State :=
  { s with
    w := { s.w with
      wRs := shiftIn s.rstIn s.w.wRs
      wq := shiftIn (if s.x.rgrayDirty = true ∧ s.drawsOld .wq1 = true then s.x.rgrayPrev else s.r.rptrGray) s.w.wq
      armQ := if s.cfg.hasRc = true then a else s.w.armQ }
    x := { s.x with
      rgrayDirty := false
      armPrev := if s.cfg.hasRc = true ∧ a ≠ s.w.armQ then s.w.armQ else s.x.armPrev
      armDirty := if s.cfg.hasRc = true ∧ a ≠ s.w.armQ then true else s.x.armDirty } }

/-- R96's frame at an edge that is not held, written out register by register: the reset synchroniser, `SyncW2R`
(R111) and, with the companion, `ArmSync` (R122), `EnableUpdate` (R123) and `ReportDefault` (R127). -/
def readFrame (s : State) : State :=
  { s with
    r := { s.r with
      rRs := shiftIn s.rstIn s.r.rRs
      rq := shiftIn (if s.x.wgrayDirty = true ∧ s.drawsOld .rq1 = true then s.x.wgrayPrev else s.w.wptrGray) s.r.rq
      armS :=
        if s.cfg.hasRc = true then
          shiftIn (if s.x.armDirty = true ∧ s.drawsOld .as1 = true then s.x.armPrev else s.w.armQ) s.r.armS
        else s.r.armS
      enable := if s.cfg.hasRc = true ∧ s.armView = true then true else s.r.enable
      rptValid := if s.cfg.hasRc = true then false else s.r.rptValid }
    x := { s.x with
      wgrayDirty := false
      armDirty := if s.cfg.hasRc = true then false else s.x.armDirty } }

/-- R73: the arm level an operation presents at a W-edge, field `a`. -/
def armLevel : Instr → Bool
  | .wArm _ => true
  | .wEnqArm _ => true
  | _ => false

/-- R93, R121: an operation that requests an enqueue. -/
def requestsEnqueue : Instr → Bool
  | .wEnq _ => true
  | .wEnqArm _ => true
  | _ => false

/-- R93: this edge accepts an enqueue. -/
def acceptsEnqueue (i : Instr) (s : State) : Bool := requestsEnqueue i && !s.wFull

/-- R126: this edge is a tick whose period elapses while the companion is enabled. -/
def dueTick (i : Instr) (s : State) : Bool :=
  match i with
  | .rcTick m =>
    !s.rHeld && s.r.enable && decide (effectivePeriod s.r.consumeEvery m ≤ nextCycle s.cfg s.r.cycle)
  | _ => false

/-- R126, R131: this edge takes the underrun branch. -/
def takesUnderrun (i : Instr) (s : State) : Bool := dueTick i s && s.rEmpty

/-- R102, R126: this edge accepts a dequeue, of an external consumer or of a drain. -/
def acceptsDequeue (i : Instr) (s : State) : Bool :=
  match i with
  | .rDeq _ => !s.rEmpty
  | .rcTick m => dueTick (.rcTick m) s && !s.rEmpty
  | _ => false

/-- R136: this edge raises `Overflow`. -/
def raisesOverflow (i : Instr) (s : State) : Bool := requestsEnqueue i && !s.wHeld && s.wFull

/-- R137: this edge raises `Underflow`. -/
def raisesUnderflow (i : Instr) (s : State) : Bool :=
  match i with
  | .rDeq _ => !s.rHeld && s.rEmpty
  | _ => false

/-- R130: `k` ticks with the constant modifier `m`, each at an edge with `r_empty = 0`, among any W-edges and `R_NOP`
edges, none of them a reset. -/
inductive TickRun (m : Nat) : State → Nat → State → Prop where
  | start (s : State) : TickRun m s 0 s
  | other {s t u : State} {k : Nat} (i : Instr) (e : Environment) (before : TickRun m s k t)
      (kind : i.format = .we ∨ ∃ m', i = .rNop m') (edge : exec i { t with env := e } = .next u) : TickRun m s k u
  | tick {s t u : State} {k : Nat} (e : Environment) (before : TickRun m s k t) (visible : t.rEmpty = false)
      (edge : exec (.rcTick m) { t with env := e } = .next u) : TickRun m s (k + 1) u

/-! ### Infinite runs and fairness -/

/-- R22, R167: an infinite run: the operation `op n` takes `σ n` to `σ (n + 1)`, with an environment (its draws among
them) that nothing constrains. -/
def Execution (σ : Nat → State) (op : Nat → Instr) : Prop :=
  ∀ n, ∃ e : Environment, exec (op n) { σ n with env := e } = .next (σ (n + 1))

/-- `p` holds again and again. -/
def Infinitely (p : Nat → Prop) : Prop := ∀ n, ∃ m, n ≤ m ∧ p m

/-- No reset assertion from the `n`-th step on. -/
def NoResetFrom (op : Nat → Instr) (n : Nat) : Prop := ∀ m, n ≤ m → op m ≠ .resetAssert

/-- R167, R23: weak fairness: each domain's clock takes infinitely many edges, and `RESET_ASSERT` happens only finitely
often. -/
structure WeaklyFair (op : Nat → Instr) : Prop where
  writeClock : Infinitely fun n => (op n).format = .we
  readClock : Infinitely fun n => (op n).format = .re
  resets : ∃ n, NoResetFrom op n

/-- R167: a fair run of an instance from its launch state. -/
structure FairRun (c : Config) (σ : Nat → State) (op : Nat → Instr) : Prop where
  cfg : c.wf = true
  start : σ 0 = State.launch c
  execution : Execution σ op
  fair : WeaklyFair op

/-- R167: from the `n`-th step on, the read client dequeues whenever `r_empty = 0`. -/
def ReaderDequeuesFrom (σ : Nat → State) (op : Nat → Instr) (n : Nat) : Prop :=
  ∀ m, n ≤ m → (op m).format = .re → (σ m).rEmpty = false → op m = .rDeq 0

/-- R126: an operation that is a timer tick. -/
def isTick : Instr → Bool
  | .rcTick _ => true
  | _ => false

/-- The ticks among the steps from `n` on and before `m`. -/
def ticksBetween (op : Nat → Instr) (n m : Nat) : Nat := (List.range' n (m - n)).countP fun k => isTick (op k)

/-! ### Records -/

/-- R8: a state with every record blanked: what is left is what steers the block. -/
def State.blankRecords (s : State) : State :=
  { s with
    mem := s.mem.map fun cell => (cell.1, 0)
    r.rptData := 0
    g.accepted := s.g.accepted.map fun _ => 0
    g.consumed := s.g.consumed.map fun _ => 0 }

/-- An operation with its record operand blanked. -/
def blankOperand : Instr → Instr
  | .wNop _ => .wNop 0
  | .wEnq _ => .wEnq 0
  | .wArm _ => .wArm 0
  | .wEnqArm _ => .wEnqArm 0
  | .rNop m => .rNop m
  | .rDeq m => .rDeq m
  | .rcTick m => .rcTick m
  | .resetAssert => .resetAssert
  | .resetDeassert => .resetDeassert

end Sys2Proof.Machine
end

