-- ==== Sys2Proof/Certificates/Slice0/Obligations.lean ====
section
/-! DEFINITION. The statements for the provers, from the numbered rules of the spec. They state; they prove nothing. -/

open Sys2Proof Sys2Proof.Machine

/-! ### Encoding (30_encoding.md) -/

/-- 95_test_vectors.md §2.2, words written out from R73, R74, R75: one of every operation, and the refused words. -/
def Obligations.ReferenceWordsDecode : Prop :=
  decode Config.reference .we 0x0000000 = .ok (.wNop 0) ∧
  decode Config.reference .we 0x0123456 = .ok (.wNop 0x123456) ∧
  decode Config.reference .we 0x1ABCDEF = .ok (.wEnq 0xABCDEF) ∧
  decode Config.reference .we 0x2000000 = .ok (.wArm 0) ∧
  decode Config.reference .we 0x3000005 = .ok (.wEnqArm 5) ∧
  decode Config.reference .re 0x00000 = .ok (.rNop 0) ∧
  decode Config.reference .re 0x20003 = .ok (.rcTick 3) ∧
  decode Config.reference .re 0x00005 = .ok (.rNop 5) ∧
  decode { Config.reference with hasRc := false } .re 0x10000 = .ok (.rDeq 0) ∧
  decode Config.reference .sy 1 = .ok .resetAssert ∧
  decode Config.reference .sy 0 = .ok .resetDeassert ∧
  decode Config.reference .re 0x30000 = .error .twoConsumers ∧
  decode { Config.reference with hasRc := false } .re 0x30000 = .error .twoConsumers ∧
  decode { Config.reference with hasRc := false } .re 0x20000 = .error .absentPort ∧
  decode { Config.reference with hasRc := false } .re 0x00005 = .error .absentPort ∧
  decode { Config.reference with hasRc := false } .we 0x2000000 = .error .absentPort ∧
  decode Config.reference .re 0x10000 = .error .absentPort

/-- R73 to R79: decoding the encoded word of any operation of any instance gives the operation back, with every operand
at every value its field admits. -/
def Obligations.DecodeOfEncodeIsIdentity : Prop :=
  ∀ (c : Config) (i : Instr), i.wellFormed c = true → decode c (encode c i).fmt (encode c i).word = .ok i

/-- R84: a word selects one operation. That the operation, with its ignored field carried, has no other word is the
model's choice (log 23): R76 lets `W_NOP` and `W_ARM` ignore every `d`, and `R_NOP` every `m`. -/
def Obligations.EncodeOfDecodeIsIdentity : Prop :=
  ∀ (c : Config) (f : Format) (word : Nat) (i : Instr),
    decode c f word = .ok i → i.wellFormed c = true ∧ encode c i = ⟨f, word⟩

/-- R81, R82: a step that presents the reserved RE combination is refused as `TwoConsumers`; any other word with a 1 in
a tied field is refused as `AbsentPort`. R84: every remaining word of its format's width selects an operation, and the
step runs. -/
def Obligations.ReservedAndTiedWordsRefused : Prop :=
  ∀ (s : State) (f : Format) (word : Nat) (draws : Draws) (rest : List Stimulus),
    s.env.inputs = .line (.sample f word draws) :: rest → word < 2 ^ f.width s.cfg →
    let reserved := f = .re ∧ word.testBit s.cfg.periodBits = true ∧ word.testBit (s.cfg.periodBits + 1) = true
    let tied :=
      (f = .we ∧ s.cfg.hasRc = false ∧ word.testBit (s.cfg.dataBits + 1) = true) ∨
      (f = .re ∧ s.cfg.hasRc = false ∧
        (word.testBit (s.cfg.periodBits + 1) = true ∨ word % 2 ^ s.cfg.periodBits ≠ 0)) ∨
      (f = .re ∧ s.cfg.hasRc = true ∧ word.testBit s.cfg.periodBits = true)
    (reserved → step s = .refused .twoConsumers) ∧
    (¬ reserved → tied → step s = .refused .absentPort) ∧
    (¬ reserved → ¬ tied → ∃ i t, decode s.cfg f word = .ok i ∧ step s = .next t)

/-- R22, R72: a step runs the operation its word decodes to. Around it the step only takes the line from the script,
puts the line's draw choices in force and moves the counter of the free values on. -/
def Obligations.StepRunsTheDecodedOperation : Prop :=
  ∀ (s : State) (f : Format) (word : Nat) (draws : Draws) (rest : List Stimulus) (i : Instr),
    s.env.inputs = .line (.sample f word draws) :: rest → decode s.cfg f word = .ok i →
    step s = exec i { s with env := {
      inputs := rest, producer := s.env.producer, draws := draws, drawIndex := s.env.drawIndex + 1 } }

/-- R76: field `d` is ignored when `e = 0`, and field `m` when `t = 0`. -/
def Obligations.IgnoredFieldsHaveNoEffect : Prop :=
  ∀ (s : State) (v v' : Nat),
    (fits s.cfg.dataBits v = true → fits s.cfg.dataBits v' = true →
      exec (.wNop v) s = exec (.wNop v') s ∧ exec (.wArm v) s = exec (.wArm v') s) ∧
    (s.cfg.hasRc = true → fits s.cfg.periodBits v = true → fits s.cfg.periodBits v' = true →
      exec (.rNop v) s = exec (.rNop v') s)

/-! ### Gray code and flags (42_pointer_sync.md §1, 40 and 41 §2) -/

/-- R106: `bin_A` by its recursion on bits, and `gray_A(x) == g` iff `x == bin_A(g)` on `A`-bit values. -/
def Obligations.GrayAndBinAreInverse : Prop :=
  ∀ (A : Nat) (g : Nat), 1 ≤ A → g < 2 ^ A →
    bin A g < 2 ^ A ∧
    (bin A g).testBit (A - 1) = g.testBit (A - 1) ∧
    (∀ i, i + 1 < A → (bin A g).testBit i = ((bin A g).testBit (i + 1) ^^ g.testBit i)) ∧
    (∀ x, x < 2 ^ A → gray x < 2 ^ A ∧ (gray x = g ↔ x = bin A g))

/-- R107: consecutive codes, the wrap among them, differ in exactly one bit; for three states the wrap changes two. -/
def Obligations.GrayChangesOneBitCyclically : Prop :=
  ∀ (A : Nat) (b : Nat), 1 ≤ A → b < 2 ^ A →
    (∃ k < A, gray b ^^^ gray ((b + 1) % 2 ^ A) = 2 ^ k) ∧ gray (2 ^ A - 1) = 2 ^ (A - 1) ∧
      gray 2 = 0b11 ∧ gray 0 = 0b00

/-- R89, R91: outside reset `w_full` is `(tail + 1) mod N == head` over the write domain's view, and is
`w_level = N - 1`; a held domain is full. -/
def Obligations.FullFlagMeaning : Prop :=
  ∀ s : State, s.Wf →
    (s.wHeld = true → s.wFull = true) ∧
    (s.wHeld = false →
      (s.wFull = true ↔ (s.w.wptrBin + 1) % 2 ^ s.cfg.addrBits = bin s.cfg.addrBits s.wView) ∧
      (s.wFull = true ↔ s.wLevel = s.cfg.slots - 1)) ∧
    s.wLevel < s.cfg.slots

/-- R97, R99: outside reset `r_empty` is `head == tail` over the read domain's view, and is `r_level = 0`; a held domain
is empty. -/
def Obligations.EmptyFlagMeaning : Prop :=
  ∀ s : State, s.Wf → s.r.rptrGray = gray s.r.rptrBin →
    (s.rHeld = true → s.rEmpty = true) ∧
    (s.rHeld = false →
      (s.rEmpty = true ↔ s.r.rptrBin = bin s.cfg.addrBits s.rView) ∧ (s.rEmpty = true ↔ s.rLevel = 0)) ∧
    s.rLevel < s.cfg.slots

/-- R118: full and empty exclude each other for the true pair of cursors and for each domain's own pair, but the two
domains' flags can both be 1: three enqueues from reset before any R-edge, `N = 4`. -/
def Obligations.FullAndEmptyExcludePerView : Prop :=
  (∀ s : State, s.Wf →
    ¬ (incPtr s.cfg s.w.wptrBin = s.r.rptrBin ∧ s.w.wptrBin = s.r.rptrBin) ∧
    ¬ (incPtr s.cfg s.w.wptrBin = bin s.cfg.addrBits s.wView ∧ s.w.wptrBin = bin s.cfg.addrBits s.wView) ∧
    ¬ (incPtr s.cfg (bin s.cfg.addrBits s.rView) = s.r.rptrBin ∧ bin s.cfg.addrBits s.rView = s.r.rptrBin)) ∧
  ∃ t, Run (State.released Config.reference) [.wEnq 1, .wEnq 2, .wEnq 3] t ∧
    t.wHeld = false ∧ t.rHeld = false ∧ t.wFull = true ∧ t.rEmpty = true ∧
    t.g.enqCount = 3 ∧ t.cntWq = 0 ∧ t.g.deqCount = 0 ∧ t.cntRq = 0

/-- R94, R7: from the released reset state, on every run with no dequeue, whatever its edges, the view of `head` stays 0,
`w_level` is the number of accepted enqueues, at most `N - 1`, and `w_full = 1` exactly at `N - 1`; the next enqueue is
accepted below that, and rejected with `w_ovf <- 1` at it. `N - 1` enqueues in a row are such a run. When dequeues
overlap, more than `N - 1` may be accepted in total (an instance with `N = 2`), but never are more held at once. -/
def Obligations.CapacityIsSlotsMinusOne : Prop :=
  (∀ (c : Config) (is : List Instr) (t : State), c.wf = true → NoReset is → Run (State.released c) is t →
    t.g.deqCount = 0 →
    t.wView = 0 ∧ t.wLevel = t.g.enqCount ∧ t.g.enqCount ≤ c.slots - 1 ∧
    (t.wFull = true ↔ t.g.enqCount = c.slots - 1) ∧
    ∀ (i : Instr) (e : Environment), requestsEnqueue i = true → i.wellFormed c = true →
      ∃ u, exec i { t with env := e } = .next u ∧
        (t.g.enqCount < c.slots - 1 → u.g.enqCount = t.g.enqCount + 1 ∧ u.w.wOvf = t.w.wOvf) ∧
        (t.g.enqCount = c.slots - 1 → u.g.accepted = t.g.accepted ∧ u.w.wOvf = true)) ∧
  (∀ (c : Config) (records : List Nat), c.wf = true → (∀ d ∈ records, d < 2 ^ c.dataBits) →
    records.length ≤ c.slots - 1 →
    ∃ t, Run (State.released c) (records.map .wEnq) t ∧ t.g.accepted = records ∧ t.w.wOvf = false) ∧
  (∃ is t, Run (State.released { Config.reference with addrBits := 1, hasRc := false }) is t ∧
    NoReset is ∧ t.cfg.slots - 1 < t.g.accepted.length) ∧
  ∀ (s : State), s.RingOk → s.g.enqCount - s.g.deqCount ≤ s.cfg.slots - 1

/-! ### Edges (40_write_port.md, 41_read_port.md, 42_pointer_sync.md, 43_rate_controller.md) -/

/-- R40, R111, R112, R122: one edge of a chain, of pointers or of single bits: stage 1 takes the sample, stage `k + 1`
takes stage `k`. -/
def Obligations.ChainShiftsOneStage : Prop :=
  ∀ (α : Type) (v : α) (chain : List α),
    (shiftIn v chain).length = chain.length ∧
    (chain ≠ [] → (shiftIn v chain)[0]? = some v) ∧
    ∀ k, k + 1 < chain.length → (shiftIn v chain)[k + 1]? = chain[k]?

/-- R92, R120: at an edge that is not held, `W_NOP` and `W_ARM` complete with the frame of R88 and nothing else. -/
def Obligations.WriteEdgeWithoutEnqueue : Prop :=
  ∀ (s : State) (d : Nat), d < 2 ^ s.cfg.dataBits → s.wHeld = false →
    exec (.wNop d) s = .next (writeFrame false s) ∧
    (s.cfg.hasRc = true → exec (.wArm d) s = .next (writeFrame true s))

/-- R93, R121: `W_ENQ` and `W_ENQ_ARM` with `w_full = 0` complete: the frame, and the record stored in slot `wptr_bin`,
the pointer advanced modulo `N` and published in gray form, the ghost count and the accepted trace grown. -/
def Obligations.AcceptedEnqueueStoresAndPublishes : Prop :=
  ∀ (s : State) (d : Nat) (a : Bool) (i : Instr), d < 2 ^ s.cfg.dataBits → s.wFull = false →
    (a = false ∧ i = .wEnq d) ∨ (a = true ∧ s.cfg.hasRc = true ∧ i = .wEnqArm d) →
    exec i s = .next { writeFrame a s with
      mem := s.mem.write s.w.wptrBin d
      stale := s.stale.filter (· ≠ s.w.wptrBin)
      w := { (writeFrame a s).w with
        wptrBin := (s.w.wptrBin + 1) % 2 ^ s.cfg.addrBits
        wptrGray := gray ((s.w.wptrBin + 1) % 2 ^ s.cfg.addrBits) }
      x := { (writeFrame a s).x with wgrayPrev := s.w.wptrGray, wgrayDirty := true }
      g := { s.g with enqCount := s.g.enqCount + 1, accepted := s.g.accepted ++ [d] } }

/-- R93, R121, R136: with `w_full = 1` at an edge that is not held, `W_ENQ` and `W_ENQ_ARM` complete with the frame (the
arm among it) and `w_ovf <- 1`; the record is discarded. The model's log of misuses also grows (log 9, the model's). -/
def Obligations.RejectedEnqueueOverflows : Prop :=
  ∀ (s : State) (d : Nat) (a : Bool) (i : Instr),
    d < 2 ^ s.cfg.dataBits → s.wHeld = false → s.wFull = true →
    (a = false ∧ i = .wEnq d) ∨ (a = true ∧ s.cfg.hasRc = true ∧ i = .wEnqArm d) →
    exec i s = .next { writeFrame a s with
      w := { (writeFrame a s).w with wOvf := true }
      g := { s.g with misuses := s.g.misuses ++ [.overflow] } }

/-- R88, R96: at a held edge of either domain every operation completes, and only that domain's reset synchroniser
shifts. -/
def Obligations.HeldEdgeOnlyShiftsReset : Prop :=
  ∀ (s : State) (i : Instr), i.wellFormed s.cfg = true →
    (i.format = .we → s.wHeld = true → exec i s = .next { s with w := { s.w with wRs := shiftIn s.rstIn s.w.wRs } }) ∧
    (i.format = .re → s.rHeld = true → exec i s = .next { s with r := { s.r with rRs := shiftIn s.rstIn s.r.rRs } })

/-- R101: at an edge that is not held, `R_NOP` completes with the frame of R96 and nothing else. -/
def Obligations.ReadEdgeWithoutOperation : Prop :=
  ∀ (s : State) (m : Nat), Instr.wellFormed s.cfg (.rNop m) = true → s.rHeld = false →
    exec (.rNop m) s = .next (readFrame s)

/-- R102, R57: `R_DEQ` with `r_empty = 0` completes: the frame, the pointer advanced modulo `N` and published, and the
record `r_data` showed before the edge consumed, which is the one written to slot `rptr_bin`. -/
def Obligations.AcceptedDequeueConsumes : Prop :=
  ∀ (s : State), s.cfg.hasRc = false → s.rEmpty = false →
    exec (.rDeq 0) s = .next { readFrame s with
      r := { (readFrame s).r with
        rptrBin := (s.r.rptrBin + 1) % 2 ^ s.cfg.addrBits
        rptrGray := gray ((s.r.rptrBin + 1) % 2 ^ s.cfg.addrBits) }
      x := { (readFrame s).x with rgrayPrev := s.r.rptrGray, rgrayDirty := true }
      g := { s.g with deqCount := s.g.deqCount + 1, consumed := s.g.consumed ++ [s.rData] } } ∧
    ∀ v, s.slotContent s.r.rptrBin = some v → s.rData = v

/-- R102, R137: with `r_empty = 1` at an edge that is not held, `R_DEQ` completes with the frame and `r_udf <- 1`. The
model's log of misuses also grows (log 9, the model's). -/
def Obligations.RejectedDequeueUnderflows : Prop :=
  ∀ (s : State), s.cfg.hasRc = false → s.rHeld = false → s.rEmpty = true →
    exec (.rDeq 0) s = .next { readFrame s with
      r := { (readFrame s).r with rUdf := true }
      g := { s.g with misuses := s.g.misuses ++ [.underflow] } }

/-- R126, R124: a tick with `enable = 0` completes with the frame and nothing else, no dequeue; an enabled tick before the
period has elapsed counts. -/
def Obligations.TickThatIsNotDueOnlyCounts : Prop :=
  ∀ (s : State) (m : Nat), s.cfg.hasRc = true → m < 2 ^ s.cfg.periodBits → s.rHeld = false →
    (s.r.enable = false → exec (.rcTick m) s = .next (readFrame s)) ∧
    (s.r.enable = true → s.r.consumeEvery < 2 ^ s.cfg.periodBits → s.r.cycle + 1 < s.r.consumeEvery + m →
      exec (.rcTick m) s = .next { readFrame s with r := { (readFrame s).r with cycle := s.r.cycle + 1 } })

/-- R126: an enabled tick at which the period has elapsed and `r_empty = 0` drains one record and reports it. -/
def Obligations.DueTickDrains : Prop :=
  ∀ (s : State) (m : Nat), s.cfg.hasRc = true → m < 2 ^ s.cfg.periodBits → s.rEmpty = false → s.r.enable = true →
    s.r.cycle + 1 < 2 ^ (s.cfg.periodBits + 1) → s.r.consumeEvery + m ≤ s.r.cycle + 1 →
    exec (.rcTick m) s = .next { readFrame s with
      r := { (readFrame s).r with
        rptrBin := (s.r.rptrBin + 1) % 2 ^ s.cfg.addrBits
        rptrGray := gray ((s.r.rptrBin + 1) % 2 ^ s.cfg.addrBits)
        cycle := 0
        rptValid := true
        rptKind := .drain
        rptData := s.rData
        rptPeriod := s.r.consumeEvery + m }
      x := { (readFrame s).x with rgrayPrev := s.r.rptrGray, rgrayDirty := true }
      g := { s.g with deqCount := s.g.deqCount + 1, consumed := s.g.consumed ++ [s.rData] } }

/-- R126, R123: an enabled tick at which the period has elapsed and `r_empty = 1` takes the underrun branch. -/
def Obligations.DueTickUnderruns : Prop :=
  ∀ (s : State) (m : Nat), s.cfg.hasRc = true → m < 2 ^ s.cfg.periodBits → s.rHeld = false → s.rEmpty = true →
    s.r.enable = true → s.r.cycle + 1 < 2 ^ (s.cfg.periodBits + 1) → s.r.consumeEvery + m ≤ s.r.cycle + 1 →
    exec (.rcTick m) s = .next { readFrame s with
      r := { (readFrame s).r with
        cycle := 0
        consumeEvery := min (s.r.consumeEvery + 1) (2 ^ s.cfg.periodBits - 1)
        enable := false
        rptValid := true
        rptKind := .underrun
        rptPeriod := min (s.r.consumeEvery + 1) (2 ^ s.cfg.periodBits - 1) + m } }

/-- R123: `enable` after any R-edge that is not held: an underrun clears it and wins over the arm, else the arm sets it,
else it is unchanged. -/
def Obligations.EnableFollowsArmUnlessUnderrun : Prop :=
  ∀ (s t : State) (i : Instr), s.cfg.hasRc = true → i.format = .re → s.rHeld = false → exec i s = .next t →
    t.r.enable = if takesUnderrun i s = true then false else if s.armView = true then true else s.r.enable

/-- R127: `rpt_valid` is 1 after exactly the edges at which a tick drained or took an underrun; the report registers
keep their values otherwise, an underrun keeps `rpt_data`, and the report outputs are these registers. -/
def Obligations.ReportIsValidForOneEdge : Prop :=
  ∀ (s t : State) (i : Instr), s.cfg.hasRc = true → i.format = .re → s.rHeld = false → exec i s = .next t →
    t.r.rptValid = dueTick i s ∧
    (dueTick i s = false →
      t.r.rptKind = s.r.rptKind ∧ t.r.rptData = s.r.rptData ∧ t.r.rptPeriod = s.r.rptPeriod) ∧
    (takesUnderrun i s = true → t.r.rptData = s.r.rptData) ∧
    t.readPorts.report = some ⟨t.r.rptValid, t.r.rptKind, t.r.rptData, t.r.rptPeriod⟩

/-- R111, R112, R122: every edge that is not held shifts its synchronisers, whatever its operation, and clears the dirty
bit of the signal it captured. -/
def Obligations.EveryEdgeRunsItsSynchroniser : Prop :=
  ∀ (s t : State) (i : Instr), exec i s = .next t →
    (i.format = .we → s.wHeld = false →
      t.w.wq = shiftIn (if s.x.rgrayDirty = true ∧ s.drawsOld .wq1 = true then s.x.rgrayPrev else s.r.rptrGray) s.w.wq ∧
      t.x.rgrayDirty = false) ∧
    (i.format = .re → s.rHeld = false →
      t.r.rq = shiftIn (if s.x.wgrayDirty = true ∧ s.drawsOld .rq1 = true then s.x.wgrayPrev else s.w.wptrGray) s.r.rq ∧
      t.x.wgrayDirty = false ∧
      (s.cfg.hasRc = true →
        t.r.armS = shiftIn (if s.x.armDirty = true ∧ s.drawsOld .as1 = true then s.x.armPrev else s.w.armQ) s.r.armS ∧
        t.x.armDirty = false))

/-- R110: where the source changed since the last capture, the first stage can take its old and its new value, by the
draw alone, and nothing else; where it did not, only the current value; the capture clears the dirty bit. Said of all
three synchronisers. -/
def Obligations.CaptureAdmitsExactlyTheDraws : Prop :=
  ∀ (s : State), s.Wf →
    (s.rHeld = false → ∀ v,
      (∃ draws t, exec (.rNop 0) { s with env := { s.env with draws := draws } } = .next t ∧ t.r.rq.head? = some v) ↔
      v = s.w.wptrGray ∨ (s.x.wgrayDirty = true ∧ v = s.x.wgrayPrev)) ∧
    (s.wHeld = false → ∀ v,
      (∃ draws t, exec (.wNop 0) { s with env := { s.env with draws := draws } } = .next t ∧ t.w.wq.head? = some v) ↔
      v = s.r.rptrGray ∨ (s.x.rgrayDirty = true ∧ v = s.x.rgrayPrev)) ∧
    (s.rHeld = false → s.cfg.hasRc = true → ∀ b,
      (∃ draws t, exec (.rNop 0) { s with env := { s.env with draws := draws } } = .next t ∧ t.r.armS.head? = some b) ↔
      b = s.w.armQ ∨ (s.x.armDirty = true ∧ b = s.x.armPrev)) ∧
    ∀ (t : State) (i : Instr), exec i s = .next t →
      (i.format = .re → s.rHeld = false → t.x.wgrayDirty = false ∧ (s.cfg.hasRc = true → t.x.armDirty = false)) ∧
      (i.format = .we → s.wHeld = false → t.x.rgrayDirty = false)

/-! ### Reset (70_reset_and_hazards.md) -/

/-- R153: the outputs of a held domain, its requests ignored, and the outputs of the released reset state. -/
def Obligations.HeldOutputsAndRelease : Prop :=
  (∀ s : State, HoldInv s →
    (s.wHeld = true → s.wFull = true ∧ s.w.wOvf = false ∧
      ∀ i, i.format = .we → i.wellFormed s.cfg = true →
        ∃ t, exec i s = .next t ∧ t.mem = s.mem ∧ t.stale = s.stale ∧ t.g = s.g ∧ t.w.wOvf = false) ∧
    (s.rHeld = true → s.rEmpty = true ∧ s.r.rUdf = false ∧
      s.r.rptValid = false ∧ s.r.rptKind = .drain ∧ s.r.rptData = 0 ∧ s.r.rptPeriod = 0 ∧
      ∀ i, i.format = .re → i.wellFormed s.cfg = true →
        ∃ t, exec i s = .next t ∧ t.g = s.g ∧ t.r.rUdf = false)) ∧
  ∀ c : Config, c.wf = true → (State.released c).wFull = false ∧ (State.released c).rEmpty = true

/-- R152: after a deassert each domain is held for exactly `SR` of its own edges, however the edges interleave. -/
def Obligations.ReleaseAfterExactlySrEdges : Prop :=
  ∀ (s t : State) (is : List Instr), s.cfg.wf = true → s.rstIn = false →
    s.w.wRs = List.replicate s.cfg.rstStages true → s.r.rRs = List.replicate s.cfg.rstStages true →
    NoReset is → Run s is t →
    (t.wHeld = true ↔ wEdges is < s.cfg.rstStages) ∧ (t.rHeld = true ↔ rEdges is < s.cfg.rstStages)

/-- R49: the value of every register after the reset assertion. R150, R104: the counts are 0 and both traces empty. R45,
R150: no slot changes in fact, and what every slot holds is unspecified from then on; that a record kept stands in
`mem`, and reads as a free value of it, is the model's way to say both (log 7). -/
def Obligations.ResetAssertSetsEveryRegister : Prop :=
  ∀ s : State, ∃ t, exec .resetAssert s = .next t ∧
    t.w = { wptrBin := 0, wptrGray := 0, wq := List.replicate s.cfg.syncStages 0, wOvf := false,
            wRs := List.replicate s.cfg.rstStages true, armQ := false } ∧
    t.r = { rptrBin := 0, rptrGray := 0, rq := List.replicate s.cfg.syncStages 0, rUdf := false,
            rRs := List.replicate s.cfg.rstStages true, armS := List.replicate s.cfg.syncStages false,
            enable := false, cycle := 0, consumeEvery := 1, rptValid := false, rptKind := .drain, rptData := 0,
            rptPeriod := 0 } ∧
    t.x = { wgrayPrev := 0, wgrayDirty := false, rgrayPrev := 0, rgrayDirty := false, armPrev := false,
            armDirty := false } ∧
    t.g.enqCount = 0 ∧ t.g.deqCount = 0 ∧ t.g.accepted = [] ∧ t.g.consumed = [] ∧
    t.rstIn = true ∧ t.mem = s.mem ∧ (∀ slot, t.slotContent slot = none) ∧ t.cfg = s.cfg

/-- R151: `RESET_DEASSERT` sets `rst_in <- 0` and changes nothing else, and has no effect while `rst_in = 0`. -/
def Obligations.ResetDeassertOnlyLowersRst : Prop :=
  ∀ s : State, exec .resetDeassert s = .next { s with rstIn := false } ∧
    (s.rstIn = false → exec .resetDeassert s = .next s)

/-- R155: the launch state: what a reset assertion leaves, `rst_in = 1`, every slot `⊥`, traces empty and counts 0. -/
def Obligations.LaunchStateIsJustAfterReset : Prop :=
  ∀ c : Config,
    exec .resetAssert (State.launch c) = .next (State.launch c) ∧ (State.launch c).rstIn = true ∧
    (∀ slot, (State.launch c).mem.read slot = none ∧ (State.launch c).slotContent slot = none) ∧
    (State.launch c).g.accepted = [] ∧ (State.launch c).g.consumed = [] ∧
    (State.launch c).g.enqCount = 0 ∧ (State.launch c).g.deqCount = 0

/-- R154, R20: the reset of one domain alone faults, whatever the state, and no later input leads out of the fault. That
such an event can be presented at all is the model's choice (log 10). -/
def Obligations.PartialResetFaultsForGood : Prop :=
  ∀ (s : State) (dom : Domain) (rest : List Stimulus) (k : Nat),
    s.env.inputs = .line (.partialReset dom) :: rest → Sys2Proof.core.run (k + 1) s = .fault .partialReset

/-! ### Whole-machine rules -/

/-- R60, R30: a write-domain register changes only at a W-edge or a reset, a read-domain register only at an R-edge or a
reset, and neither domain's operations write the other's. -/
def Obligations.EachDomainWritesOnlyItsOwn : Prop :=
  ∀ (s t : State) (i : Instr), exec i s = .next t →
    (i.format = .we → t.r = s.r ∧ t.rstIn = s.rstIn ∧ t.x.rgrayPrev = s.x.rgrayPrev) ∧
    (i.format = .re → t.w = s.w ∧ t.mem = s.mem ∧ t.stale = s.stale ∧ t.rstIn = s.rstIn ∧
      t.x.wgrayPrev = s.x.wgrayPrev ∧ t.x.armPrev = s.x.armPrev) ∧
    (i = .resetDeassert → t.w = s.w ∧ t.r = s.r ∧ t.mem = s.mem ∧ t.stale = s.stale ∧ t.x = s.x ∧ t.g = s.g)

/-- R45, R54: an operation changes no slot but the one an accepted enqueue addresses, `State.enqSlot` of the pre-edge
state, which then holds the record offered. Said of all nine operations, through the read of one slot: what it holds in
fact, and, for every operation but a reset assertion, what it is specified to hold. -/
def Obligations.OnlyAnAcceptedEnqueueStores : Prop :=
  ∀ (s t : State) (i : Instr), exec i s = .next t →
    (acceptsEnqueue i s = false → ∀ slot, t.mem.read slot = s.mem.read slot) ∧
    (acceptsEnqueue i s = true → ∀ slot, slot ≠ s.enqSlot → t.mem.read slot = s.mem.read slot) ∧
    (i ≠ .resetAssert → ∀ slot, (acceptsEnqueue i s = true → slot ≠ s.enqSlot) →
      t.slotContent slot = s.slotContent slot) ∧
    (∀ d, i = .wEnq d ∨ i = .wEnqArm d → acceptsEnqueue i s = true →
      t.mem.read s.enqSlot = some d ∧ t.slotContent s.enqSlot = some d)

/-- R136, R137, R142: the sticky flags are set by exactly the misuses the rules name, and by nothing else cleared than a
reset assertion; a misuse moves no pointer, stores and consumes nothing. -/
def Obligations.StickyFlagsRecordMisuse : Prop :=
  (∀ (s t : State) (i : Instr), exec i s = .next t → i ≠ .resetAssert →
    t.w.wOvf = (s.w.wOvf || raisesOverflow i s) ∧ t.r.rUdf = (s.r.rUdf || raisesUnderflow i s) ∧
    (raisesOverflow i s = true ∨ raisesUnderflow i s = true →
      t.mem = s.mem ∧ t.stale = s.stale ∧ t.w.wptrBin = s.w.wptrBin ∧ t.w.wptrGray = s.w.wptrGray ∧
      t.r.rptrBin = s.r.rptrBin ∧ t.r.rptrGray = s.r.rptrGray ∧ t.g.enqCount = s.g.enqCount ∧ t.g.deqCount = s.g.deqCount ∧
      t.g.accepted = s.g.accepted ∧ t.g.consumed = s.g.consumed)) ∧
  ∀ s t : State, exec .resetAssert s = .next t → t.w.wOvf = false ∧ t.r.rUdf = false

/-- R108, R42: between resets a published pointer changes only at its own domain's edge that accepts an operation, by
one slot and one gray bit. -/
def Obligations.PointersMoveOneSlotPerAcceptance : Prop :=
  ∀ (s t : State) (i : Instr), s.Wf → s.w.wptrGray = gray s.w.wptrBin → s.r.rptrGray = gray s.r.rptrBin →
    exec i s = .next t → i ≠ .resetAssert →
    (acceptsEnqueue i s = true → i.format = .we ∧ t.w.wptrBin = (s.w.wptrBin + 1) % s.cfg.slots ∧
      ∃ k < s.cfg.addrBits, s.w.wptrGray ^^^ t.w.wptrGray = 2 ^ k) ∧
    (acceptsEnqueue i s = false → t.w.wptrBin = s.w.wptrBin ∧ t.w.wptrGray = s.w.wptrGray) ∧
    (acceptsDequeue i s = true → i.format = .re ∧ t.r.rptrBin = (s.r.rptrBin + 1) % s.cfg.slots ∧
      ∃ k < s.cfg.addrBits, s.r.rptrGray ^^^ t.r.rptrGray = 2 ^ k) ∧
    (acceptsDequeue i s = false → t.r.rptrBin = s.r.rptrBin ∧ t.r.rptrGray = s.r.rptrGray)

/-- R157: no step changes a parameter of the instance. -/
def Obligations.ParametersNeverChange : Prop :=
  ∀ s t : State, step s = .next t → t.cfg = s.cfg

/-- R129, R128: each underrun raises `consume_every` by exactly 1 until it saturates, nothing else but a reset writes it,
and so between resets it never decreases. -/
def Obligations.ConsumeEveryNeverDecreases : Prop :=
  (∀ (s t : State) (i : Instr), s.r.consumeEvery < 2 ^ s.cfg.periodBits → exec i s = .next t → i ≠ .resetAssert →
    t.r.consumeEvery =
      if takesUnderrun i s = true then min (s.r.consumeEvery + 1) (2 ^ s.cfg.periodBits - 1) else s.r.consumeEvery) ∧
  ∀ (s t : State) (is : List Instr), s.r.consumeEvery < 2 ^ s.cfg.periodBits → NoReset is → Run s is t →
    s.r.consumeEvery ≤ t.r.consumeEvery

/-- R130: from a state with `enable = 1` and `cycle = 0`, with a constant modifier and `r_empty = 0` at every tick, the
first `per - 1` ticks drain nothing and the `per`-th drains exactly one record and leaves `cycle = 0`, whatever W-edges
and idle R-edges stand between. -/
def Obligations.DrainComesAtTheEffectivePeriod : Prop :=
  ∀ (s t : State) (m : Nat) (k : Nat), s.Wf → s.cfg.hasRc = true → m < 2 ^ s.cfg.periodBits →
    s.r.enable = true → s.r.cycle = 0 → TickRun m s k t →
    (k < s.r.consumeEvery + m → t.g.deqCount = s.g.deqCount ∧ t.g.consumed = s.g.consumed ∧ t.r.cycle = k) ∧
    (k = s.r.consumeEvery + m → t.g.deqCount = s.g.deqCount + 1 ∧ t.r.cycle = 0)

/-- R131: a due tick that finds the ring empty, and that a later edge with `arm_s[S] = 1` sets `enable` again. -/
def Obligations.UnderrunDisarmsAndSlowsDown : Prop :=
  (∀ (s : State) (m : Nat), s.cfg.hasRc = true → m < 2 ^ s.cfg.periodBits →
    takesUnderrun (.rcTick m) s = true →
    ∃ t, exec (.rcTick m) s = .next t ∧ t.r.enable = false ∧ t.r.cycle = 0 ∧ t.g.deqCount = s.g.deqCount ∧
      t.g.consumed = s.g.consumed ∧ t.r.rptrBin = s.r.rptrBin ∧
      t.r.consumeEvery = min (s.r.consumeEvery + 1) (2 ^ s.cfg.periodBits - 1)) ∧
  ∀ (u v : State) (i : Instr), u.cfg.hasRc = true → i.format = .re → u.rHeld = false → u.armView = true →
    takesUnderrun i u = false → exec i u = .next v → v.r.enable = true

/-! ### Invariants -/

/-- R32 to R37, R45, R46, R125: every register keeps its declared width, every chain its length, the storage its
canonical form and its bounds. -/
def Obligations.WellFormedStateIsKept : Prop :=
  ∀ s t : State, s.Wf → step s = .next t → t.Wf

/-- R150, R113: the reset synchronisers keep their form and a held domain keeps its reset values however many edges
occur. -/
def Obligations.HeldDomainKeepsResetValues : Prop :=
  ∀ s t : State, HoldInv s → step s = .next t → HoldInv t

/-- R155: the launch state of every instance, the reference instance's reset state among them, meets the three
invariants. -/
def Obligations.LaunchStateMeetsInvariants : Prop :=
  ∀ c : Config, c.wf = true →
    (State.launch c).Wf ∧ HoldInv (State.launch c) ∧ (State.launch c).RingOk

/-- R117: the ring invariant is kept by every step, whatever the environment presents and draws. -/
def Obligations.RingInvariantIsKept : Prop :=
  ∀ s t : State, s.RingOk → step s = .next t → t.RingOk

/-- R115, R65: at every edge the tags can be carried on so that none decreases: no view ever moves backwards, and none
overtakes its source (the invariant's order clauses). -/
def Obligations.ViewsNeverMoveBackwards : Prop :=
  ∀ (s t : State) (i : Instr) (wt rt : List Nat), RingInv s wt rt → exec i s = .next t → i ≠ .resetAssert →
    ∃ wt' rt', RingInv t wt' rt' ∧ List.Forall₂ (· ≤ ·) wt wt' ∧ List.Forall₂ (· ≤ ·) rt rt' ∧
      s.g.enqCount ≤ t.g.enqCount ∧ s.g.deqCount ≤ t.g.deqCount

/-- R117's consequences, R90, R98: the levels are the true differences of the tags; `w_full = 0` leaves a truly free
slot, `r_empty = 0` truly shows a record, and a view errs only in the safe direction. -/
def Obligations.FlagsErrOnlyOnTheSafeSide : Prop :=
  ∀ (s : State) (wt rt : List Nat), RingInv s wt rt →
    s.wLevel = s.g.enqCount - wt.getLastD 0 ∧ s.rLevel = rt.getLastD 0 - s.g.deqCount ∧
    s.g.enqCount - s.g.deqCount ≤ s.wLevel ∧ s.rLevel ≤ s.g.enqCount - s.g.deqCount ∧
    (s.wHeld = false → (s.wFull = true ↔ s.g.enqCount - wt.getLastD 0 = s.cfg.slots - 1)) ∧
    (s.rHeld = false → (s.rEmpty = false ↔ s.g.deqCount < rt.getLastD 0)) ∧
    (s.wFull = false → s.g.enqCount - s.g.deqCount + 2 ≤ s.cfg.slots) ∧
    (s.rEmpty = false → s.g.deqCount < s.g.enqCount)

/-- R55, R63: while `r_empty = 0`, `r_data` is the oldest record accepted and not consumed, whole, and its slot is not
the one an enqueue addresses; and every slot from `rptr_bin` up to the read domain's view of `tail` holds a record that
has been accepted and not consumed. -/
def Obligations.ReadDataIsTheOldestRecord : Prop :=
  ∀ s : State, s.RingOk →
    (s.rEmpty = false → s.g.accepted[s.g.deqCount]? = some s.rData ∧ s.w.wptrBin ≠ s.r.rptrBin) ∧
    ∀ k, k < s.rLevel → ∃ v, s.slotContent ((s.r.rptrBin + k) % s.cfg.slots) = some v ∧
      s.g.accepted[s.g.deqCount + k]? = some v

/-- R64: FIFO order. On every run from the launch state of any instance, under every schedule, draw and misuse, the
records consumed are a prefix of the records accepted; and so from every state that meets the ring invariant. -/
def Obligations.ConsumedIsPrefixOfAccepted : Prop :=
  (∀ (c : Config) (is : List Instr) (t : State), c.wf = true → Run (State.launch c) is t → t.FifoOrder) ∧
  ∀ (s t : State) (is : List Instr), s.RingOk → Run s is t → t.FifoOrder

/-! ### Latencies in edges -/

/-- R116: if the source pointer makes no further change, the view equals it after `S + 1` edges of the destination, and
after `S` where no change is pending. -/
def Obligations.ViewsConvergeToTheirSource : Prop :=
  ∀ (s t : State) (is : List Instr), s.Wf → NoReset is → Run s is t →
    (s.ReadReleased → t.g.enqCount = s.g.enqCount →
      s.cfg.syncStages + (if s.x.wgrayDirty = true then 1 else 0) ≤ rEdges is → t.rView = t.w.wptrGray) ∧
    (s.WriteReleased → t.g.deqCount = s.g.deqCount →
      s.cfg.syncStages + (if s.x.rgrayDirty = true then 1 else 0) ≤ wEdges is → t.wView = t.r.rptrGray)

/-- R163: every record accepted so far is visible to the read domain after at most `S + 1` of its edges, whatever the
write domain does meanwhile; the latest is not before `S` of them; from then on `r_empty = 0` until it is consumed. -/
def Obligations.EnqueueIsVisibleInTime : Prop :=
  ∀ (s t : State) (is : List Instr) (wt rt : List Nat), RingInv s wt rt → s.ReadReleased → NoReset is → Run s is t →
    (s.cfg.syncStages + 1 ≤ rEdges is → s.g.enqCount ≤ t.cntRq) ∧
    ((∀ tag ∈ rt, tag < s.g.enqCount) → rEdges is < s.cfg.syncStages → t.cntRq < s.g.enqCount) ∧
    (s.g.enqCount ≤ t.cntRq → t.g.deqCount < s.g.enqCount → t.rEmpty = false)

/-- R164: every slot released so far counts as free to the write domain after at most `S + 1` of its edges, the latest
not before `S` of them; then `w_full = 0` unless other records fill it. -/
def Obligations.DequeueIsReleasedInTime : Prop :=
  ∀ (s t : State) (is : List Instr) (wt rt : List Nat), RingInv s wt rt → s.WriteReleased → NoReset is → Run s is t →
    (s.cfg.syncStages + 1 ≤ wEdges is → s.g.deqCount ≤ t.cntWq) ∧
    ((∀ tag ∈ wt, tag < s.g.deqCount) → wEdges is < s.cfg.syncStages → t.cntWq < s.g.deqCount) ∧
    (s.g.deqCount ≤ t.cntWq → t.g.enqCount < s.g.deqCount + s.cfg.capacity → t.wFull = false)

/-- R66: an arm raised with no earlier arm in flight never overtakes the data: whenever `enable = 1` afterwards, before a
reset, the read domain already sees every record accepted up to the arm's edge. -/
def Obligations.ArmNeverOvertakesTheData : Prop :=
  ∀ (s₀ s₁ t : State) (e : Environment) (i : Instr) (is : List Instr),
    s₀.RingOk → s₀.r.enable = false → (∀ b ∈ s₀.r.armS, b = false) → s₀.x.armDirty = false → s₀.w.armQ = false →
    s₀.r.armS.length = s₀.cfg.syncStages →
    i.format = .we → exec i { s₀ with env := e } = .next s₁ → s₁.w.armQ = true →
    NoReset is → Run s₁ is t → t.r.enable = true → s₁.g.enqCount ≤ t.cntRq

/-- R165: with the arm held at 1, `arm_s[S] = 1` after at most `S + 1` edges of the read domain and not before `S`, and
`enable` at the next edge that takes no underrun, and not before the `(S + 1)`-th. -/
def Obligations.ArmReachesEnableInTime : Prop :=
  ∀ (s t : State) (is : List Instr), s.Wf → s.cfg.hasRc = true → s.ReadReleased → s.w.armQ = true → NoReset is →
    (∀ i ∈ is, i.format = .we → ∃ d, i = .wArm d ∨ i = .wEnqArm d) → Run s is t →
    (s.cfg.syncStages + 1 ≤ rEdges is → t.armView = true ∧
      ∀ (e : Environment) (i : Instr) (u : State), i.format = .re → takesUnderrun i { t with env := e } = false →
        exec i { t with env := e } = .next u → u.r.enable = true) ∧
    ((∀ b ∈ s.r.armS, b = false) → rEdges is < s.cfg.syncStages → t.armView = false) ∧
    ((∀ b ∈ s.r.armS, b = false) → s.r.enable = false → rEdges is ≤ s.cfg.syncStages → t.r.enable = false)

/-! ### Liveness under a fair schedule (70_reset_and_hazards.md §4) -/

/-- R167: on every fair run of every instance, once resets have ceased: every record accepted becomes visible to the read
domain for good, and every slot released to the write domain; a reader that dequeues whenever `r_empty = 0` consumes
every record accepted; and, once `rst` is low (R156), a writer that enqueues at every edge with `w_full = 0` has an
enqueue accepted, if such a reader keeps dequeuing. -/
def Obligations.FairRunsDeliverAndRelease : Prop :=
  ∀ (c : Config) (σ : Nat → State) (op : Nat → Instr) (n : Nat), FairRun c σ op → NoResetFrom op n →
    (∃ m, n ≤ m ∧ ∀ k, m ≤ k → (σ n).g.enqCount ≤ (σ k).cntRq) ∧
    (∃ m, n ≤ m ∧ ∀ k, m ≤ k → (σ n).g.deqCount ≤ (σ k).cntWq) ∧
    (ReaderDequeuesFrom σ op n → ∃ m, n ≤ m ∧ (σ n).g.enqCount ≤ (σ m).g.deqCount) ∧
    (ReaderDequeuesFrom σ op n → (∃ m, n ≤ m ∧ (σ m).rstIn = false) →
      (∀ m, n ≤ m → (op m).format = .we → (σ m).wFull = false → requestsEnqueue (op m) = true) →
      ∃ m, n ≤ m ∧ acceptsEnqueue (op m) (σ m) = true)

/-- R167 with the companion: on every fair run, once resets have ceased: an arm that is held sets `enable`; with
infinitely many ticks and a modifier of at most `bound`, an enabled companion reaches a drain attempt before
`consume_every + bound` further ticks have passed; and, once `rst` is low (R156), a producer that arms while full and
enqueues when not has an enqueue accepted. -/
def Obligations.FairTicksMakeProgress : Prop :=
  ∀ (c : Config) (σ : Nat → State) (op : Nat → Instr) (n : Nat),
    c.hasRc = true → FairRun c σ op → NoResetFrom op n →
    ((σ n).w.armQ = true → (∀ m, n ≤ m → (op m).format = .we → armLevel (op m) = true) →
      ∃ m, n ≤ m ∧ (σ m).r.enable = true) ∧
    (∀ bound, (σ n).r.enable = true → (Infinitely fun m => isTick (op m) = true) →
      (∀ m k, n ≤ m → op m = .rcTick k → k ≤ bound) →
      ∃ m, n ≤ m ∧ dueTick (op m) (σ m) = true ∧ ticksBetween op n m < (σ n).r.consumeEvery + bound) ∧
    ((Infinitely fun m => isTick (op m) = true) → (∃ m, n ≤ m ∧ (σ m).rstIn = false) →
      (∀ m, n ≤ m → (op m).format = .we →
        if (σ m).wFull = true then armLevel (op m) = true else requestsEnqueue (op m) = true) →
      ∃ m, n ≤ m ∧ acceptsEnqueue (op m) (σ m) = true)

/-! ### Clients -/

/-- R132, R133, R134: a W-edge of the reference producer never raises `Overflow`; with the companion, when it waits for
nothing, the edge arms while `w_full = 1`, and at `w_full = 0` accepts its next record, and it goes on to the odometer's
next record after a delay below `K`. How the delay is drawn (a number of the script modulo `K`, log 13), and that without
the companion its edge is refused (log 21), is the model's choice. -/
def Obligations.ReferenceProducerNeverOverflows : Prop :=
  (∀ (s t : State) (delayDraw : Nat) (draws : Draws) (rest : List Stimulus),
    s.env.inputs = .producerEdge delayDraw draws :: rest → step s = .next t →
    t.w.wOvf = s.w.wOvf ∧ t.g.misuses = s.g.misuses) ∧
  ∀ (s : State) (delayDraw : Nat) (draws : Draws) (rest : List Stimulus),
    s.env.inputs = .producerEdge delayDraw draws :: rest → s.env.producer.delay = 0 →
    (s.cfg.hasRc = false → step s = .refused .absentPort) ∧
    (s.cfg.hasRc = true → s.wFull = true → ∃ t, step s = .next t ∧ t.g.accepted = s.g.accepted ∧
      t.env.producer = s.env.producer ∧ (s.wHeld = false → t.w.armQ = true)) ∧
    (s.cfg.hasRc = true → s.wFull = false → s.env.producer.next < 2 ^ s.cfg.dataBits → 1 ≤ s.cfg.delayBound →
      ∃ t, step s = .next t ∧ t.g.accepted = s.g.accepted ++ [s.env.producer.next] ∧
        t.env.producer.next = (s.env.producer.next + 1) % 2 ^ s.cfg.dataBits ∧
        t.env.producer.delay = delayDraw % s.cfg.delayBound ∧ t.env.producer.delay < s.cfg.delayBound)

/-- R87: `PUSH`, `PUSH_ARM` and `POP` test the flag they wait for: while it is 1 they idle (`PUSH_ARM` arms) and stay in
place, and the edge at which it is 0 accepts the record or consumes the oldest. None raises a misuse. That `PUSH_ARM`
without the companion and a record wider than `W` bits are refused is the model's choice (log 21), and so is that a
waiting pseudo-operation stays at the script's head, with no line of the other domain between its lines (log 25). -/
def Obligations.PushAndPopHonourTheFlags : Prop :=
  (∀ (s : State) (v : Nat) (rest : List Stimulus) (arm : Bool),
    s.env.inputs = .pseudo (if arm then .pushArm v else .push v) :: rest → (arm = true → s.cfg.hasRc = true) →
    (s.wFull = true → ∃ t, step s = .next t ∧ t.w.wOvf = s.w.wOvf ∧ t.g.accepted = s.g.accepted ∧
      t.env.inputs = s.env.inputs ∧ (s.cfg.hasRc = true → s.wHeld = false → t.w.armQ = arm)) ∧
    (s.wFull = false → v < 2 ^ s.cfg.dataBits → ∃ t, step s = .next t ∧ t.w.wOvf = s.w.wOvf ∧
      t.g.accepted = s.g.accepted ++ [v] ∧ t.env.inputs = rest) ∧
    (s.wFull = false → 2 ^ s.cfg.dataBits ≤ v → step s = .refused .wordTooWide)) ∧
  (∀ (s : State) (v : Nat) (rest : List Stimulus),
    s.env.inputs = .pseudo (.pushArm v) :: rest → s.cfg.hasRc = false → step s = .refused .absentPort) ∧
  ∀ (s : State) (rest : List Stimulus),
    s.env.inputs = .pseudo .pop :: rest → s.cfg.hasRc = false →
    ∃ t, step s = .next t ∧ t.r.rUdf = s.r.rUdf ∧
      (s.rEmpty = true → t.g.consumed = s.g.consumed ∧ t.env.inputs = s.env.inputs) ∧
      (s.rEmpty = false → t.g.consumed = s.g.consumed ++ [s.rData] ∧ t.env.inputs = rest)

/-- R87, R156: from any state, `RESET` with any interleaving takes `2 + 2 * SR` steps and leaves both domains released at
their reset values, the storage kept in fact and its contents unspecified (how the model says both is log 7), both traces
and the model's log of misuses empty (the latter is log 9). How an interleaving is written is the model's choice
(log 14). -/
def Obligations.ResetSequenceReleasesBothDomains : Prop :=
  ∀ (s : State) (order : List Domain) (rest : List Stimulus),
    s.cfg.wf = true → s.env.inputs = .pseudo (.reset order) :: rest →
    ∃ t : State, Sys2Proof.core.run (2 + 2 * s.cfg.rstStages) s = .next t ∧ t.env.inputs = rest ∧ t.rstIn = false ∧
      t.w = { WriteDomain.afterReset s.cfg with wRs := List.replicate s.cfg.rstStages false } ∧
      t.r = { ReadDomain.afterReset s.cfg with rRs := List.replicate s.cfg.rstStages false } ∧
      t.mem = s.mem ∧ (∀ slot, t.slotContent slot = none) ∧ t.g = Observation.afterReset ∧ t.cfg = s.cfg

/-- R8: the block gives a record's bits no meaning. Two machines that differ only in the records they hold and are
offered, step by step, differ only in records afterwards: no pointer, flag, view, counter or period. -/
def Obligations.RecordBitsNeverSteer : Prop :=
  ∀ (s s' t t' : State) (i i' : Instr), s.blankRecords = s'.blankRecords → blankOperand i = blankOperand i' →
    exec i s = .next t → exec i' s' = .next t' → t.blankRecords = t'.blankRecords
end

