-- ==== Sys2Proof/Laws/Pointers.lean ====
section
/-! SUPPORT. Chains, captures, slot arithmetic and the gray code: each definition's small lemmas. -/

namespace Sys2Proof.Machine

variable {α : Type}

/-! ### Chains -/

@[simp] theorem shiftIn_length (v : α) (l : List α) : (shiftIn v l).length = l.length := by
  induction l generalizing v with
  | nil => rfl
  | cons a l ih => simp [shiftIn, ih]

theorem shiftIn_eq_cons_dropLast (v : α) {l : List α} (h : l ≠ []) : shiftIn v l = v :: l.dropLast := by
  induction l generalizing v with
  | nil => exact absurd rfl h
  | cons a l ih =>
    cases l with
    | nil => rfl
    | cons b l => rw [shiftIn, ih a (by simp), List.dropLast_cons_cons]

theorem shiftIn_map {β : Type} (f : α → β) (v : α) (l : List α) : shiftIn (f v) (l.map f) = (shiftIn v l).map f := by
  induction l generalizing v with
  | nil => rfl
  | cons a l ih => simp [shiftIn, ih]

theorem shiftIn_replicate (v : α) (n : Nat) : shiftIn v (List.replicate n v) = List.replicate n v := by
  induction n with
  | zero => rfl
  | succ n ih => simp [List.replicate_succ, shiftIn, ih]

/-- What a stage holds after an edge was sampled or stood in the chain before it. -/
theorem mem_shiftIn {v a : α} {l : List α} (h : a ∈ shiftIn v l) : a = v ∨ a ∈ l := by
  induction l generalizing v with
  | nil => simp [shiftIn] at h
  | cons b l ih =>
    rcases List.mem_cons.mp h with h | h
    · exact .inl h
    · rcases ih h with h | h <;> simp [h]

theorem shiftIn_getElem?_zero (v : α) {l : List α} (h : l ≠ []) : (shiftIn v l)[0]? = some v := by
  simp [shiftIn_eq_cons_dropLast v h]

theorem shiftIn_getElem?_succ (v : α) {l : List α} {k : Nat} (h : k + 1 < l.length) :
    (shiftIn v l)[k + 1]? = l[k]? := by
  have hl : l ≠ [] := by rintro rfl; simp at h
  rw [shiftIn_eq_cons_dropLast v hl, List.getElem?_cons_succ, List.getElem?_dropLast]
  simp; omega

/-! ### Captures -/

@[simp] theorem capture_clean (cur prev : α) (old : Bool) : capture cur prev false old = cur := rfl

/-- R110: a capture is the current value, or the previous one when the source is dirty. -/
theorem capture_cases (cur prev : α) (dirty old : Bool) :
    capture cur prev dirty old = cur ∨ (dirty = true ∧ capture cur prev dirty old = prev) := by
  cases dirty <;> cases old <;> simp [capture]

theorem capture_eq_ite (cur prev : α) (dirty old : Bool) :
    capture cur prev dirty old = if dirty = true ∧ old = true then prev else cur := by
  cases dirty <;> cases old <;> rfl

/-! ### Slots -/

theorem slots_pos (c : Config) : 0 < c.slots := Nat.two_pow_pos _

theorem two_le_slots {c : Config} (h : c.wf = true) : 2 ≤ c.slots := by
  have hA : 1 ≤ c.addrBits := by simp [Config.wf] at h; omega
  exact (Nat.pow_le_pow_right (by decide) hA : 2 ^ 1 ≤ 2 ^ c.addrBits)

theorem incPtr_eq (c : Config) (x : Nat) : incPtr c x = (x + 1) % c.slots := rfl

theorem incPtr_lt (c : Config) (x : Nat) : incPtr c x < c.slots := Nat.mod_lt _ (slots_pos c)

/-- R15, R117 clause 1: the pointer of one more accepted operation. -/
theorem incPtr_mod (c : Config) (n : Nat) : incPtr c (n % c.slots) = (n + 1) % c.slots := by
  rw [incPtr_eq, Nat.mod_add_mod]

/-- Two counts less than `N` apart address the same slot only when they are equal. -/
theorem mod_eq_of_near {N a b : Nat} (hab : a ≤ b) (hN : b < a + N) (h : a % N = b % N) : a = b := by
  have h0 : (b - a) % N = 0 := Nat.sub_mod_eq_zero_of_mod_eq h.symm
  rw [Nat.mod_eq_of_lt (by omega)] at h0
  omega

theorem slotDiff_lt (c : Config) (a b : Nat) : slotDiff c a b < c.slots := Nat.mod_lt _ (slots_pos c)

/-- R91, R99: the level of two counts is their difference, where that is below `N`. -/
theorem slotDiff_mod {c : Config} {a b : Nat} (hab : b ≤ a) (hN : a < b + c.slots) :
    slotDiff c (a % c.slots) (b % c.slots) = a - b := by
  have hp := (slots_pos c)
  have hb := Nat.mod_lt b hp
  have ha := Nat.mod_lt a hp
  have key : (a % c.slots + c.slots - b % c.slots + b) % c.slots = (a - b + b) % c.slots := by
    have e1 : a % c.slots + c.slots - b % c.slots + b = a % c.slots + c.slots + c.slots * (b / c.slots) := by
      have := Nat.mod_add_div b c.slots
      omega
    rw [e1, Nat.add_mul_mod_self_left, Nat.add_mod_right, Nat.mod_mod, Nat.sub_add_cancel hab]
  have := Nat.ModEq.add_right_cancel' b key
  unfold slotDiff
  rw [this, Nat.mod_eq_of_lt (by omega)]

/-! ### Gray code -/

theorem gray_lt {n : Nat} {b : Nat} (h : b < 2 ^ n) : gray b < 2 ^ n :=
  Nat.xor_lt_two_pow h (lt_of_le_of_lt (Nat.shiftRight_le b 1) h)

@[simp] theorem gray_testBit (b i : Nat) : (gray b).testBit i = (b.testBit i ^^ b.testBit (i + 1)) := by
  simp [gray, Nat.testBit_xor, Nat.testBit_shiftRight, Nat.add_comm]

theorem bin_lt {n m : Nat} {g : Nat} (h : g < 2 ^ m) : bin n g < 2 ^ m := by
  induction n with
  | zero => exact Nat.two_pow_pos _
  | succ n ih => exact Nat.xor_lt_two_pow ih (lt_of_le_of_lt (Nat.shiftRight_le g n) h)

theorem tag_lt (c : Config) (t : Nat) : gray (t % c.slots) < c.slots := gray_lt (Nat.mod_lt _ (slots_pos c))

end Sys2Proof.Machine
end

