-- ==== Sys2Proof/Laws/State.lean ====
section
/-! SUPPORT. One lemma per field per update of State, true by rfl, so that no later proof unfolds an update. A
component an update leaves alone has one lemma for the whole of it. -/

namespace Sys2Proof.Machine

/-! ### shiftWRs -/

@[simp] theorem shiftWRs_cfg (pre post : State) : (shiftWRs pre post).cfg = post.cfg := rfl
@[simp] theorem shiftWRs_w_wptrBin (pre post : State) : (shiftWRs pre post).w.wptrBin = post.w.wptrBin := rfl
@[simp] theorem shiftWRs_w_wptrGray (pre post : State) : (shiftWRs pre post).w.wptrGray = post.w.wptrGray := rfl
@[simp] theorem shiftWRs_w_wq (pre post : State) : (shiftWRs pre post).w.wq = post.w.wq := rfl
@[simp] theorem shiftWRs_w_wOvf (pre post : State) : (shiftWRs pre post).w.wOvf = post.w.wOvf := rfl
@[simp] theorem shiftWRs_w_wRs (pre post : State) : (shiftWRs pre post).w.wRs = shiftIn pre.rstIn pre.w.wRs := rfl
@[simp] theorem shiftWRs_w_armQ (pre post : State) : (shiftWRs pre post).w.armQ = post.w.armQ := rfl
@[simp] theorem shiftWRs_r (pre post : State) : (shiftWRs pre post).r = post.r := rfl
@[simp] theorem shiftWRs_mem (pre post : State) : (shiftWRs pre post).mem = post.mem := rfl
@[simp] theorem shiftWRs_stale (pre post : State) : (shiftWRs pre post).stale = post.stale := rfl
@[simp] theorem shiftWRs_x (pre post : State) : (shiftWRs pre post).x = post.x := rfl
@[simp] theorem shiftWRs_g (pre post : State) : (shiftWRs pre post).g = post.g := rfl
@[simp] theorem shiftWRs_rstIn (pre post : State) : (shiftWRs pre post).rstIn = post.rstIn := rfl
@[simp] theorem shiftWRs_env (pre post : State) : (shiftWRs pre post).env = post.env := rfl

/-! ### shiftRRs -/

@[simp] theorem shiftRRs_cfg (pre post : State) : (shiftRRs pre post).cfg = post.cfg := rfl
@[simp] theorem shiftRRs_w (pre post : State) : (shiftRRs pre post).w = post.w := rfl
@[simp] theorem shiftRRs_r_rptrBin (pre post : State) : (shiftRRs pre post).r.rptrBin = post.r.rptrBin := rfl
@[simp] theorem shiftRRs_r_rptrGray (pre post : State) : (shiftRRs pre post).r.rptrGray = post.r.rptrGray := rfl
@[simp] theorem shiftRRs_r_rq (pre post : State) : (shiftRRs pre post).r.rq = post.r.rq := rfl
@[simp] theorem shiftRRs_r_rUdf (pre post : State) : (shiftRRs pre post).r.rUdf = post.r.rUdf := rfl
@[simp] theorem shiftRRs_r_rRs (pre post : State) : (shiftRRs pre post).r.rRs = shiftIn pre.rstIn pre.r.rRs := rfl
@[simp] theorem shiftRRs_r_armS (pre post : State) : (shiftRRs pre post).r.armS = post.r.armS := rfl
@[simp] theorem shiftRRs_r_enable (pre post : State) : (shiftRRs pre post).r.enable = post.r.enable := rfl
@[simp] theorem shiftRRs_r_cycle (pre post : State) : (shiftRRs pre post).r.cycle = post.r.cycle := rfl
@[simp] theorem shiftRRs_r_consumeEvery (pre post : State) :
    (shiftRRs pre post).r.consumeEvery = post.r.consumeEvery := rfl
@[simp] theorem shiftRRs_r_rptValid (pre post : State) : (shiftRRs pre post).r.rptValid = post.r.rptValid := rfl
@[simp] theorem shiftRRs_r_rptKind (pre post : State) : (shiftRRs pre post).r.rptKind = post.r.rptKind := rfl
@[simp] theorem shiftRRs_r_rptData (pre post : State) : (shiftRRs pre post).r.rptData = post.r.rptData := rfl
@[simp] theorem shiftRRs_r_rptPeriod (pre post : State) : (shiftRRs pre post).r.rptPeriod = post.r.rptPeriod := rfl
@[simp] theorem shiftRRs_mem (pre post : State) : (shiftRRs pre post).mem = post.mem := rfl
@[simp] theorem shiftRRs_stale (pre post : State) : (shiftRRs pre post).stale = post.stale := rfl
@[simp] theorem shiftRRs_x (pre post : State) : (shiftRRs pre post).x = post.x := rfl
@[simp] theorem shiftRRs_g (pre post : State) : (shiftRRs pre post).g = post.g := rfl
@[simp] theorem shiftRRs_rstIn (pre post : State) : (shiftRRs pre post).rstIn = post.rstIn := rfl
@[simp] theorem shiftRRs_env (pre post : State) : (shiftRRs pre post).env = post.env := rfl

/-! ### syncR2W -/

@[simp] theorem syncR2W_cfg (pre post : State) : (syncR2W pre post).cfg = post.cfg := rfl
@[simp] theorem syncR2W_w_wptrBin (pre post : State) : (syncR2W pre post).w.wptrBin = post.w.wptrBin := rfl
@[simp] theorem syncR2W_w_wptrGray (pre post : State) : (syncR2W pre post).w.wptrGray = post.w.wptrGray := rfl
@[simp] theorem syncR2W_w_wq (pre post : State) :
    (syncR2W pre post).w.wq = shiftIn (capture pre.r.rptrGray pre.x.rgrayPrev pre.x.rgrayDirty (pre.drawsOld .wq1)) pre.w.wq := rfl
@[simp] theorem syncR2W_w_wOvf (pre post : State) : (syncR2W pre post).w.wOvf = post.w.wOvf := rfl
@[simp] theorem syncR2W_w_wRs (pre post : State) : (syncR2W pre post).w.wRs = post.w.wRs := rfl
@[simp] theorem syncR2W_w_armQ (pre post : State) : (syncR2W pre post).w.armQ = post.w.armQ := rfl
@[simp] theorem syncR2W_r (pre post : State) : (syncR2W pre post).r = post.r := rfl
@[simp] theorem syncR2W_mem (pre post : State) : (syncR2W pre post).mem = post.mem := rfl
@[simp] theorem syncR2W_stale (pre post : State) : (syncR2W pre post).stale = post.stale := rfl
@[simp] theorem syncR2W_x_wgrayPrev (pre post : State) : (syncR2W pre post).x.wgrayPrev = post.x.wgrayPrev := rfl
@[simp] theorem syncR2W_x_wgrayDirty (pre post : State) : (syncR2W pre post).x.wgrayDirty = post.x.wgrayDirty := rfl
@[simp] theorem syncR2W_x_rgrayPrev (pre post : State) : (syncR2W pre post).x.rgrayPrev = post.x.rgrayPrev := rfl
@[simp] theorem syncR2W_x_rgrayDirty (pre post : State) : (syncR2W pre post).x.rgrayDirty = false := rfl
@[simp] theorem syncR2W_x_armPrev (pre post : State) : (syncR2W pre post).x.armPrev = post.x.armPrev := rfl
@[simp] theorem syncR2W_x_armDirty (pre post : State) : (syncR2W pre post).x.armDirty = post.x.armDirty := rfl
@[simp] theorem syncR2W_g (pre post : State) : (syncR2W pre post).g = post.g := rfl
@[simp] theorem syncR2W_rstIn (pre post : State) : (syncR2W pre post).rstIn = post.rstIn := rfl
@[simp] theorem syncR2W_env (pre post : State) : (syncR2W pre post).env = post.env := rfl

/-! ### syncW2R -/

@[simp] theorem syncW2R_cfg (pre post : State) : (syncW2R pre post).cfg = post.cfg := rfl
@[simp] theorem syncW2R_w (pre post : State) : (syncW2R pre post).w = post.w := rfl
@[simp] theorem syncW2R_r_rptrBin (pre post : State) : (syncW2R pre post).r.rptrBin = post.r.rptrBin := rfl
@[simp] theorem syncW2R_r_rptrGray (pre post : State) : (syncW2R pre post).r.rptrGray = post.r.rptrGray := rfl
@[simp] theorem syncW2R_r_rq (pre post : State) :
    (syncW2R pre post).r.rq = shiftIn (capture pre.w.wptrGray pre.x.wgrayPrev pre.x.wgrayDirty (pre.drawsOld .rq1)) pre.r.rq := rfl
@[simp] theorem syncW2R_r_rUdf (pre post : State) : (syncW2R pre post).r.rUdf = post.r.rUdf := rfl
@[simp] theorem syncW2R_r_rRs (pre post : State) : (syncW2R pre post).r.rRs = post.r.rRs := rfl
@[simp] theorem syncW2R_r_armS (pre post : State) : (syncW2R pre post).r.armS = post.r.armS := rfl
@[simp] theorem syncW2R_r_enable (pre post : State) : (syncW2R pre post).r.enable = post.r.enable := rfl
@[simp] theorem syncW2R_r_cycle (pre post : State) : (syncW2R pre post).r.cycle = post.r.cycle := rfl
@[simp] theorem syncW2R_r_consumeEvery (pre post : State) :
    (syncW2R pre post).r.consumeEvery = post.r.consumeEvery := rfl
@[simp] theorem syncW2R_r_rptValid (pre post : State) : (syncW2R pre post).r.rptValid = post.r.rptValid := rfl
@[simp] theorem syncW2R_r_rptKind (pre post : State) : (syncW2R pre post).r.rptKind = post.r.rptKind := rfl
@[simp] theorem syncW2R_r_rptData (pre post : State) : (syncW2R pre post).r.rptData = post.r.rptData := rfl
@[simp] theorem syncW2R_r_rptPeriod (pre post : State) : (syncW2R pre post).r.rptPeriod = post.r.rptPeriod := rfl
@[simp] theorem syncW2R_mem (pre post : State) : (syncW2R pre post).mem = post.mem := rfl
@[simp] theorem syncW2R_stale (pre post : State) : (syncW2R pre post).stale = post.stale := rfl
@[simp] theorem syncW2R_x_wgrayPrev (pre post : State) : (syncW2R pre post).x.wgrayPrev = post.x.wgrayPrev := rfl
@[simp] theorem syncW2R_x_wgrayDirty (pre post : State) : (syncW2R pre post).x.wgrayDirty = false := rfl
@[simp] theorem syncW2R_x_rgrayPrev (pre post : State) : (syncW2R pre post).x.rgrayPrev = post.x.rgrayPrev := rfl
@[simp] theorem syncW2R_x_rgrayDirty (pre post : State) : (syncW2R pre post).x.rgrayDirty = post.x.rgrayDirty := rfl
@[simp] theorem syncW2R_x_armPrev (pre post : State) : (syncW2R pre post).x.armPrev = post.x.armPrev := rfl
@[simp] theorem syncW2R_x_armDirty (pre post : State) : (syncW2R pre post).x.armDirty = post.x.armDirty := rfl
@[simp] theorem syncW2R_g (pre post : State) : (syncW2R pre post).g = post.g := rfl
@[simp] theorem syncW2R_rstIn (pre post : State) : (syncW2R pre post).rstIn = post.rstIn := rfl
@[simp] theorem syncW2R_env (pre post : State) : (syncW2R pre post).env = post.env := rfl

/-! ### armSync -/

@[simp] theorem armSync_cfg (pre post : State) : (armSync pre post).cfg = post.cfg := rfl
@[simp] theorem armSync_w (pre post : State) : (armSync pre post).w = post.w := rfl
@[simp] theorem armSync_r_rptrBin (pre post : State) : (armSync pre post).r.rptrBin = post.r.rptrBin := rfl
@[simp] theorem armSync_r_rptrGray (pre post : State) : (armSync pre post).r.rptrGray = post.r.rptrGray := rfl
@[simp] theorem armSync_r_rq (pre post : State) : (armSync pre post).r.rq = post.r.rq := rfl
@[simp] theorem armSync_r_rUdf (pre post : State) : (armSync pre post).r.rUdf = post.r.rUdf := rfl
@[simp] theorem armSync_r_rRs (pre post : State) : (armSync pre post).r.rRs = post.r.rRs := rfl
@[simp] theorem armSync_r_armS (pre post : State) :
    (armSync pre post).r.armS = shiftIn (capture pre.w.armQ pre.x.armPrev pre.x.armDirty (pre.drawsOld .as1)) pre.r.armS := rfl
@[simp] theorem armSync_r_enable (pre post : State) : (armSync pre post).r.enable = post.r.enable := rfl
@[simp] theorem armSync_r_cycle (pre post : State) : (armSync pre post).r.cycle = post.r.cycle := rfl
@[simp] theorem armSync_r_consumeEvery (pre post : State) :
    (armSync pre post).r.consumeEvery = post.r.consumeEvery := rfl
@[simp] theorem armSync_r_rptValid (pre post : State) : (armSync pre post).r.rptValid = post.r.rptValid := rfl
@[simp] theorem armSync_r_rptKind (pre post : State) : (armSync pre post).r.rptKind = post.r.rptKind := rfl
@[simp] theorem armSync_r_rptData (pre post : State) : (armSync pre post).r.rptData = post.r.rptData := rfl
@[simp] theorem armSync_r_rptPeriod (pre post : State) : (armSync pre post).r.rptPeriod = post.r.rptPeriod := rfl
@[simp] theorem armSync_mem (pre post : State) : (armSync pre post).mem = post.mem := rfl
@[simp] theorem armSync_stale (pre post : State) : (armSync pre post).stale = post.stale := rfl
@[simp] theorem armSync_x_wgrayPrev (pre post : State) : (armSync pre post).x.wgrayPrev = post.x.wgrayPrev := rfl
@[simp] theorem armSync_x_wgrayDirty (pre post : State) : (armSync pre post).x.wgrayDirty = post.x.wgrayDirty := rfl
@[simp] theorem armSync_x_rgrayPrev (pre post : State) : (armSync pre post).x.rgrayPrev = post.x.rgrayPrev := rfl
@[simp] theorem armSync_x_rgrayDirty (pre post : State) : (armSync pre post).x.rgrayDirty = post.x.rgrayDirty := rfl
@[simp] theorem armSync_x_armPrev (pre post : State) : (armSync pre post).x.armPrev = post.x.armPrev := rfl
@[simp] theorem armSync_x_armDirty (pre post : State) : (armSync pre post).x.armDirty = false := rfl
@[simp] theorem armSync_g (pre post : State) : (armSync pre post).g = post.g := rfl
@[simp] theorem armSync_rstIn (pre post : State) : (armSync pre post).rstIn = post.rstIn := rfl
@[simp] theorem armSync_env (pre post : State) : (armSync pre post).env = post.env := rfl

/-! ### enableUpdate -/

@[simp] theorem enableUpdate_cfg (pre post : State) : (enableUpdate pre post).cfg = post.cfg := rfl
@[simp] theorem enableUpdate_w (pre post : State) : (enableUpdate pre post).w = post.w := rfl
@[simp] theorem enableUpdate_r_rptrBin (pre post : State) : (enableUpdate pre post).r.rptrBin = post.r.rptrBin := rfl
@[simp] theorem enableUpdate_r_rptrGray (pre post : State) :
    (enableUpdate pre post).r.rptrGray = post.r.rptrGray := rfl
@[simp] theorem enableUpdate_r_rq (pre post : State) : (enableUpdate pre post).r.rq = post.r.rq := rfl
@[simp] theorem enableUpdate_r_rUdf (pre post : State) : (enableUpdate pre post).r.rUdf = post.r.rUdf := rfl
@[simp] theorem enableUpdate_r_rRs (pre post : State) : (enableUpdate pre post).r.rRs = post.r.rRs := rfl
@[simp] theorem enableUpdate_r_armS (pre post : State) : (enableUpdate pre post).r.armS = post.r.armS := rfl
@[simp] theorem enableUpdate_r_enable (pre post : State) :
    (enableUpdate pre post).r.enable = (pre.r.enable || pre.armView) := rfl
@[simp] theorem enableUpdate_r_cycle (pre post : State) : (enableUpdate pre post).r.cycle = post.r.cycle := rfl
@[simp] theorem enableUpdate_r_consumeEvery (pre post : State) :
    (enableUpdate pre post).r.consumeEvery = post.r.consumeEvery := rfl
@[simp] theorem enableUpdate_r_rptValid (pre post : State) :
    (enableUpdate pre post).r.rptValid = post.r.rptValid := rfl
@[simp] theorem enableUpdate_r_rptKind (pre post : State) : (enableUpdate pre post).r.rptKind = post.r.rptKind := rfl
@[simp] theorem enableUpdate_r_rptData (pre post : State) : (enableUpdate pre post).r.rptData = post.r.rptData := rfl
@[simp] theorem enableUpdate_r_rptPeriod (pre post : State) :
    (enableUpdate pre post).r.rptPeriod = post.r.rptPeriod := rfl
@[simp] theorem enableUpdate_mem (pre post : State) : (enableUpdate pre post).mem = post.mem := rfl
@[simp] theorem enableUpdate_stale (pre post : State) : (enableUpdate pre post).stale = post.stale := rfl
@[simp] theorem enableUpdate_x (pre post : State) : (enableUpdate pre post).x = post.x := rfl
@[simp] theorem enableUpdate_g (pre post : State) : (enableUpdate pre post).g = post.g := rfl
@[simp] theorem enableUpdate_rstIn (pre post : State) : (enableUpdate pre post).rstIn = post.rstIn := rfl
@[simp] theorem enableUpdate_env (pre post : State) : (enableUpdate pre post).env = post.env := rfl

/-! ### reportDefault -/

@[simp] theorem reportDefault_cfg (pre post : State) : (reportDefault pre post).cfg = post.cfg := rfl
@[simp] theorem reportDefault_w (pre post : State) : (reportDefault pre post).w = post.w := rfl
@[simp] theorem reportDefault_r_rptrBin (pre post : State) :
    (reportDefault pre post).r.rptrBin = post.r.rptrBin := rfl
@[simp] theorem reportDefault_r_rptrGray (pre post : State) :
    (reportDefault pre post).r.rptrGray = post.r.rptrGray := rfl
@[simp] theorem reportDefault_r_rq (pre post : State) : (reportDefault pre post).r.rq = post.r.rq := rfl
@[simp] theorem reportDefault_r_rUdf (pre post : State) : (reportDefault pre post).r.rUdf = post.r.rUdf := rfl
@[simp] theorem reportDefault_r_rRs (pre post : State) : (reportDefault pre post).r.rRs = post.r.rRs := rfl
@[simp] theorem reportDefault_r_armS (pre post : State) : (reportDefault pre post).r.armS = post.r.armS := rfl
@[simp] theorem reportDefault_r_enable (pre post : State) : (reportDefault pre post).r.enable = post.r.enable := rfl
@[simp] theorem reportDefault_r_cycle (pre post : State) : (reportDefault pre post).r.cycle = post.r.cycle := rfl
@[simp] theorem reportDefault_r_consumeEvery (pre post : State) :
    (reportDefault pre post).r.consumeEvery = post.r.consumeEvery := rfl
@[simp] theorem reportDefault_r_rptValid (pre post : State) : (reportDefault pre post).r.rptValid = false := rfl
@[simp] theorem reportDefault_r_rptKind (pre post : State) :
    (reportDefault pre post).r.rptKind = post.r.rptKind := rfl
@[simp] theorem reportDefault_r_rptData (pre post : State) :
    (reportDefault pre post).r.rptData = post.r.rptData := rfl
@[simp] theorem reportDefault_r_rptPeriod (pre post : State) :
    (reportDefault pre post).r.rptPeriod = post.r.rptPeriod := rfl
@[simp] theorem reportDefault_mem (pre post : State) : (reportDefault pre post).mem = post.mem := rfl
@[simp] theorem reportDefault_stale (pre post : State) : (reportDefault pre post).stale = post.stale := rfl
@[simp] theorem reportDefault_x (pre post : State) : (reportDefault pre post).x = post.x := rfl
@[simp] theorem reportDefault_g (pre post : State) : (reportDefault pre post).g = post.g := rfl
@[simp] theorem reportDefault_rstIn (pre post : State) : (reportDefault pre post).rstIn = post.rstIn := rfl
@[simp] theorem reportDefault_env (pre post : State) : (reportDefault pre post).env = post.env := rfl

/-! ### noOperation -/

@[simp] theorem noOperation_cfg (pre post : State) : (noOperation pre post).cfg = post.cfg := rfl
@[simp] theorem noOperation_w (pre post : State) : (noOperation pre post).w = post.w := rfl
@[simp] theorem noOperation_r (pre post : State) : (noOperation pre post).r = post.r := rfl
@[simp] theorem noOperation_mem (pre post : State) : (noOperation pre post).mem = post.mem := rfl
@[simp] theorem noOperation_stale (pre post : State) : (noOperation pre post).stale = post.stale := rfl
@[simp] theorem noOperation_x (pre post : State) : (noOperation pre post).x = post.x := rfl
@[simp] theorem noOperation_g (pre post : State) : (noOperation pre post).g = post.g := rfl
@[simp] theorem noOperation_rstIn (pre post : State) : (noOperation pre post).rstIn = post.rstIn := rfl
@[simp] theorem noOperation_env (pre post : State) : (noOperation pre post).env = post.env := rfl

/-! ### raise_overflow -/

@[simp] theorem raise_overflow_cfg (post : State) : (raise .overflow post).cfg = post.cfg := rfl
@[simp] theorem raise_overflow_w_wptrBin (post : State) : (raise .overflow post).w.wptrBin = post.w.wptrBin := rfl
@[simp] theorem raise_overflow_w_wptrGray (post : State) : (raise .overflow post).w.wptrGray = post.w.wptrGray := rfl
@[simp] theorem raise_overflow_w_wq (post : State) : (raise .overflow post).w.wq = post.w.wq := rfl
@[simp] theorem raise_overflow_w_wOvf (post : State) : (raise .overflow post).w.wOvf = true := rfl
@[simp] theorem raise_overflow_w_wRs (post : State) : (raise .overflow post).w.wRs = post.w.wRs := rfl
@[simp] theorem raise_overflow_w_armQ (post : State) : (raise .overflow post).w.armQ = post.w.armQ := rfl
@[simp] theorem raise_overflow_r (post : State) : (raise .overflow post).r = post.r := rfl
@[simp] theorem raise_overflow_mem (post : State) : (raise .overflow post).mem = post.mem := rfl
@[simp] theorem raise_overflow_stale (post : State) : (raise .overflow post).stale = post.stale := rfl
@[simp] theorem raise_overflow_x (post : State) : (raise .overflow post).x = post.x := rfl
@[simp] theorem raise_overflow_g_enqCount (post : State) : (raise .overflow post).g.enqCount = post.g.enqCount := rfl
@[simp] theorem raise_overflow_g_deqCount (post : State) : (raise .overflow post).g.deqCount = post.g.deqCount := rfl
@[simp] theorem raise_overflow_g_accepted (post : State) : (raise .overflow post).g.accepted = post.g.accepted := rfl
@[simp] theorem raise_overflow_g_consumed (post : State) : (raise .overflow post).g.consumed = post.g.consumed := rfl
@[simp] theorem raise_overflow_g_misuses (post : State) :
    (raise .overflow post).g.misuses = post.g.misuses ++ [.overflow] := rfl
@[simp] theorem raise_overflow_rstIn (post : State) : (raise .overflow post).rstIn = post.rstIn := rfl
@[simp] theorem raise_overflow_env (post : State) : (raise .overflow post).env = post.env := rfl

/-! ### raise_underflow -/

@[simp] theorem raise_underflow_cfg (post : State) : (raise .underflow post).cfg = post.cfg := rfl
@[simp] theorem raise_underflow_w (post : State) : (raise .underflow post).w = post.w := rfl
@[simp] theorem raise_underflow_r_rptrBin (post : State) : (raise .underflow post).r.rptrBin = post.r.rptrBin := rfl
@[simp] theorem raise_underflow_r_rptrGray (post : State) :
    (raise .underflow post).r.rptrGray = post.r.rptrGray := rfl
@[simp] theorem raise_underflow_r_rq (post : State) : (raise .underflow post).r.rq = post.r.rq := rfl
@[simp] theorem raise_underflow_r_rUdf (post : State) : (raise .underflow post).r.rUdf = true := rfl
@[simp] theorem raise_underflow_r_rRs (post : State) : (raise .underflow post).r.rRs = post.r.rRs := rfl
@[simp] theorem raise_underflow_r_armS (post : State) : (raise .underflow post).r.armS = post.r.armS := rfl
@[simp] theorem raise_underflow_r_enable (post : State) : (raise .underflow post).r.enable = post.r.enable := rfl
@[simp] theorem raise_underflow_r_cycle (post : State) : (raise .underflow post).r.cycle = post.r.cycle := rfl
@[simp] theorem raise_underflow_r_consumeEvery (post : State) :
    (raise .underflow post).r.consumeEvery = post.r.consumeEvery := rfl
@[simp] theorem raise_underflow_r_rptValid (post : State) :
    (raise .underflow post).r.rptValid = post.r.rptValid := rfl
@[simp] theorem raise_underflow_r_rptKind (post : State) : (raise .underflow post).r.rptKind = post.r.rptKind := rfl
@[simp] theorem raise_underflow_r_rptData (post : State) : (raise .underflow post).r.rptData = post.r.rptData := rfl
@[simp] theorem raise_underflow_r_rptPeriod (post : State) :
    (raise .underflow post).r.rptPeriod = post.r.rptPeriod := rfl
@[simp] theorem raise_underflow_mem (post : State) : (raise .underflow post).mem = post.mem := rfl
@[simp] theorem raise_underflow_stale (post : State) : (raise .underflow post).stale = post.stale := rfl
@[simp] theorem raise_underflow_x (post : State) : (raise .underflow post).x = post.x := rfl
@[simp] theorem raise_underflow_g_enqCount (post : State) :
    (raise .underflow post).g.enqCount = post.g.enqCount := rfl
@[simp] theorem raise_underflow_g_deqCount (post : State) :
    (raise .underflow post).g.deqCount = post.g.deqCount := rfl
@[simp] theorem raise_underflow_g_accepted (post : State) :
    (raise .underflow post).g.accepted = post.g.accepted := rfl
@[simp] theorem raise_underflow_g_consumed (post : State) :
    (raise .underflow post).g.consumed = post.g.consumed := rfl
@[simp] theorem raise_underflow_g_misuses (post : State) :
    (raise .underflow post).g.misuses = post.g.misuses ++ [.underflow] := rfl
@[simp] theorem raise_underflow_rstIn (post : State) : (raise .underflow post).rstIn = post.rstIn := rfl
@[simp] theorem raise_underflow_env (post : State) : (raise .underflow post).env = post.env := rfl

/-! ### acceptRecord -/

@[simp] theorem acceptRecord_cfg (d : Nat) (pre post : State) : (acceptRecord d pre post).cfg = post.cfg := rfl
@[simp] theorem acceptRecord_w_wptrBin (d : Nat) (pre post : State) :
    (acceptRecord d pre post).w.wptrBin = incPtr pre.cfg pre.w.wptrBin := rfl
@[simp] theorem acceptRecord_w_wptrGray (d : Nat) (pre post : State) :
    (acceptRecord d pre post).w.wptrGray = gray (incPtr pre.cfg pre.w.wptrBin) := rfl
@[simp] theorem acceptRecord_w_wq (d : Nat) (pre post : State) : (acceptRecord d pre post).w.wq = post.w.wq := rfl
@[simp] theorem acceptRecord_w_wOvf (d : Nat) (pre post : State) :
    (acceptRecord d pre post).w.wOvf = post.w.wOvf := rfl
@[simp] theorem acceptRecord_w_wRs (d : Nat) (pre post : State) : (acceptRecord d pre post).w.wRs = post.w.wRs := rfl
@[simp] theorem acceptRecord_w_armQ (d : Nat) (pre post : State) :
    (acceptRecord d pre post).w.armQ = post.w.armQ := rfl
@[simp] theorem acceptRecord_r (d : Nat) (pre post : State) : (acceptRecord d pre post).r = post.r := rfl
@[simp] theorem acceptRecord_mem (d : Nat) (pre post : State) :
    (acceptRecord d pre post).mem = pre.mem.write pre.w.wptrBin d := rfl
@[simp] theorem acceptRecord_stale (d : Nat) (pre post : State) :
    (acceptRecord d pre post).stale = pre.stale.filter (· ≠ pre.w.wptrBin) := rfl
@[simp] theorem acceptRecord_x_wgrayPrev (d : Nat) (pre post : State) :
    (acceptRecord d pre post).x.wgrayPrev = pre.w.wptrGray := rfl
@[simp] theorem acceptRecord_x_wgrayDirty (d : Nat) (pre post : State) :
    (acceptRecord d pre post).x.wgrayDirty = true := rfl
@[simp] theorem acceptRecord_x_rgrayPrev (d : Nat) (pre post : State) :
    (acceptRecord d pre post).x.rgrayPrev = post.x.rgrayPrev := rfl
@[simp] theorem acceptRecord_x_rgrayDirty (d : Nat) (pre post : State) :
    (acceptRecord d pre post).x.rgrayDirty = post.x.rgrayDirty := rfl
@[simp] theorem acceptRecord_x_armPrev (d : Nat) (pre post : State) :
    (acceptRecord d pre post).x.armPrev = post.x.armPrev := rfl
@[simp] theorem acceptRecord_x_armDirty (d : Nat) (pre post : State) :
    (acceptRecord d pre post).x.armDirty = post.x.armDirty := rfl
@[simp] theorem acceptRecord_g_enqCount (d : Nat) (pre post : State) :
    (acceptRecord d pre post).g.enqCount = pre.g.enqCount + 1 := rfl
@[simp] theorem acceptRecord_g_deqCount (d : Nat) (pre post : State) :
    (acceptRecord d pre post).g.deqCount = post.g.deqCount := rfl
@[simp] theorem acceptRecord_g_accepted (d : Nat) (pre post : State) :
    (acceptRecord d pre post).g.accepted = pre.g.accepted ++ [d] := rfl
@[simp] theorem acceptRecord_g_consumed (d : Nat) (pre post : State) :
    (acceptRecord d pre post).g.consumed = post.g.consumed := rfl
@[simp] theorem acceptRecord_g_misuses (d : Nat) (pre post : State) :
    (acceptRecord d pre post).g.misuses = post.g.misuses := rfl
@[simp] theorem acceptRecord_rstIn (d : Nat) (pre post : State) : (acceptRecord d pre post).rstIn = post.rstIn := rfl
@[simp] theorem acceptRecord_env (d : Nat) (pre post : State) : (acceptRecord d pre post).env = post.env := rfl

/-! ### consumeRecord -/

@[simp] theorem consumeRecord_cfg (pre post : State) : (consumeRecord pre post).cfg = post.cfg := rfl
@[simp] theorem consumeRecord_w (pre post : State) : (consumeRecord pre post).w = post.w := rfl
@[simp] theorem consumeRecord_r_rptrBin (pre post : State) :
    (consumeRecord pre post).r.rptrBin = incPtr pre.cfg pre.r.rptrBin := rfl
@[simp] theorem consumeRecord_r_rptrGray (pre post : State) :
    (consumeRecord pre post).r.rptrGray = gray (incPtr pre.cfg pre.r.rptrBin) := rfl
@[simp] theorem consumeRecord_r_rq (pre post : State) : (consumeRecord pre post).r.rq = post.r.rq := rfl
@[simp] theorem consumeRecord_r_rUdf (pre post : State) : (consumeRecord pre post).r.rUdf = post.r.rUdf := rfl
@[simp] theorem consumeRecord_r_rRs (pre post : State) : (consumeRecord pre post).r.rRs = post.r.rRs := rfl
@[simp] theorem consumeRecord_r_armS (pre post : State) : (consumeRecord pre post).r.armS = post.r.armS := rfl
@[simp] theorem consumeRecord_r_enable (pre post : State) : (consumeRecord pre post).r.enable = post.r.enable := rfl
@[simp] theorem consumeRecord_r_cycle (pre post : State) : (consumeRecord pre post).r.cycle = post.r.cycle := rfl
@[simp] theorem consumeRecord_r_consumeEvery (pre post : State) :
    (consumeRecord pre post).r.consumeEvery = post.r.consumeEvery := rfl
@[simp] theorem consumeRecord_r_rptValid (pre post : State) :
    (consumeRecord pre post).r.rptValid = post.r.rptValid := rfl
@[simp] theorem consumeRecord_r_rptKind (pre post : State) :
    (consumeRecord pre post).r.rptKind = post.r.rptKind := rfl
@[simp] theorem consumeRecord_r_rptData (pre post : State) :
    (consumeRecord pre post).r.rptData = post.r.rptData := rfl
@[simp] theorem consumeRecord_r_rptPeriod (pre post : State) :
    (consumeRecord pre post).r.rptPeriod = post.r.rptPeriod := rfl
@[simp] theorem consumeRecord_mem (pre post : State) : (consumeRecord pre post).mem = post.mem := rfl
@[simp] theorem consumeRecord_stale (pre post : State) : (consumeRecord pre post).stale = post.stale := rfl
@[simp] theorem consumeRecord_x_wgrayPrev (pre post : State) :
    (consumeRecord pre post).x.wgrayPrev = post.x.wgrayPrev := rfl
@[simp] theorem consumeRecord_x_wgrayDirty (pre post : State) :
    (consumeRecord pre post).x.wgrayDirty = post.x.wgrayDirty := rfl
@[simp] theorem consumeRecord_x_rgrayPrev (pre post : State) :
    (consumeRecord pre post).x.rgrayPrev = pre.r.rptrGray := rfl
@[simp] theorem consumeRecord_x_rgrayDirty (pre post : State) : (consumeRecord pre post).x.rgrayDirty = true := rfl
@[simp] theorem consumeRecord_x_armPrev (pre post : State) :
    (consumeRecord pre post).x.armPrev = post.x.armPrev := rfl
@[simp] theorem consumeRecord_x_armDirty (pre post : State) :
    (consumeRecord pre post).x.armDirty = post.x.armDirty := rfl
@[simp] theorem consumeRecord_g_enqCount (pre post : State) :
    (consumeRecord pre post).g.enqCount = post.g.enqCount := rfl
@[simp] theorem consumeRecord_g_deqCount (pre post : State) :
    (consumeRecord pre post).g.deqCount = pre.g.deqCount + 1 := rfl
@[simp] theorem consumeRecord_g_accepted (pre post : State) :
    (consumeRecord pre post).g.accepted = post.g.accepted := rfl
@[simp] theorem consumeRecord_g_consumed (pre post : State) :
    (consumeRecord pre post).g.consumed = pre.g.consumed ++ [pre.rData] := rfl
@[simp] theorem consumeRecord_g_misuses (pre post : State) :
    (consumeRecord pre post).g.misuses = post.g.misuses := rfl
@[simp] theorem consumeRecord_rstIn (pre post : State) : (consumeRecord pre post).rstIn = post.rstIn := rfl
@[simp] theorem consumeRecord_env (pre post : State) : (consumeRecord pre post).env = post.env := rfl

/-! ### drain -/

@[simp] theorem drain_cfg (m : Nat) (pre post : State) : (drain m pre post).cfg = post.cfg := rfl
@[simp] theorem drain_w (m : Nat) (pre post : State) : (drain m pre post).w = post.w := rfl
@[simp] theorem drain_r_rptrBin (m : Nat) (pre post : State) :
    (drain m pre post).r.rptrBin = incPtr pre.cfg pre.r.rptrBin := rfl
@[simp] theorem drain_r_rptrGray (m : Nat) (pre post : State) :
    (drain m pre post).r.rptrGray = gray (incPtr pre.cfg pre.r.rptrBin) := rfl
@[simp] theorem drain_r_rq (m : Nat) (pre post : State) : (drain m pre post).r.rq = post.r.rq := rfl
@[simp] theorem drain_r_rUdf (m : Nat) (pre post : State) : (drain m pre post).r.rUdf = post.r.rUdf := rfl
@[simp] theorem drain_r_rRs (m : Nat) (pre post : State) : (drain m pre post).r.rRs = post.r.rRs := rfl
@[simp] theorem drain_r_armS (m : Nat) (pre post : State) : (drain m pre post).r.armS = post.r.armS := rfl
@[simp] theorem drain_r_enable (m : Nat) (pre post : State) : (drain m pre post).r.enable = post.r.enable := rfl
@[simp] theorem drain_r_cycle (m : Nat) (pre post : State) : (drain m pre post).r.cycle = 0 := rfl
@[simp] theorem drain_r_consumeEvery (m : Nat) (pre post : State) :
    (drain m pre post).r.consumeEvery = post.r.consumeEvery := rfl
@[simp] theorem drain_r_rptValid (m : Nat) (pre post : State) : (drain m pre post).r.rptValid = true := rfl
@[simp] theorem drain_r_rptKind (m : Nat) (pre post : State) : (drain m pre post).r.rptKind = .drain := rfl
@[simp] theorem drain_r_rptData (m : Nat) (pre post : State) : (drain m pre post).r.rptData = pre.rData := rfl
@[simp] theorem drain_r_rptPeriod (m : Nat) (pre post : State) :
    (drain m pre post).r.rptPeriod = effectivePeriod pre.r.consumeEvery m := rfl
@[simp] theorem drain_mem (m : Nat) (pre post : State) : (drain m pre post).mem = post.mem := rfl
@[simp] theorem drain_stale (m : Nat) (pre post : State) : (drain m pre post).stale = post.stale := rfl
@[simp] theorem drain_x_wgrayPrev (m : Nat) (pre post : State) :
    (drain m pre post).x.wgrayPrev = post.x.wgrayPrev := rfl
@[simp] theorem drain_x_wgrayDirty (m : Nat) (pre post : State) :
    (drain m pre post).x.wgrayDirty = post.x.wgrayDirty := rfl
@[simp] theorem drain_x_rgrayPrev (m : Nat) (pre post : State) :
    (drain m pre post).x.rgrayPrev = pre.r.rptrGray := rfl
@[simp] theorem drain_x_rgrayDirty (m : Nat) (pre post : State) : (drain m pre post).x.rgrayDirty = true := rfl
@[simp] theorem drain_x_armPrev (m : Nat) (pre post : State) : (drain m pre post).x.armPrev = post.x.armPrev := rfl
@[simp] theorem drain_x_armDirty (m : Nat) (pre post : State) : (drain m pre post).x.armDirty = post.x.armDirty := rfl
@[simp] theorem drain_g_enqCount (m : Nat) (pre post : State) : (drain m pre post).g.enqCount = post.g.enqCount := rfl
@[simp] theorem drain_g_deqCount (m : Nat) (pre post : State) :
    (drain m pre post).g.deqCount = pre.g.deqCount + 1 := rfl
@[simp] theorem drain_g_accepted (m : Nat) (pre post : State) : (drain m pre post).g.accepted = post.g.accepted := rfl
@[simp] theorem drain_g_consumed (m : Nat) (pre post : State) :
    (drain m pre post).g.consumed = pre.g.consumed ++ [pre.rData] := rfl
@[simp] theorem drain_g_misuses (m : Nat) (pre post : State) : (drain m pre post).g.misuses = post.g.misuses := rfl
@[simp] theorem drain_rstIn (m : Nat) (pre post : State) : (drain m pre post).rstIn = post.rstIn := rfl
@[simp] theorem drain_env (m : Nat) (pre post : State) : (drain m pre post).env = post.env := rfl

/-! ### underrun -/

@[simp] theorem underrun_cfg (m : Nat) (pre post : State) : (underrun m pre post).cfg = post.cfg := rfl
@[simp] theorem underrun_w (m : Nat) (pre post : State) : (underrun m pre post).w = post.w := rfl
@[simp] theorem underrun_r_rptrBin (m : Nat) (pre post : State) :
    (underrun m pre post).r.rptrBin = post.r.rptrBin := rfl
@[simp] theorem underrun_r_rptrGray (m : Nat) (pre post : State) :
    (underrun m pre post).r.rptrGray = post.r.rptrGray := rfl
@[simp] theorem underrun_r_rq (m : Nat) (pre post : State) : (underrun m pre post).r.rq = post.r.rq := rfl
@[simp] theorem underrun_r_rUdf (m : Nat) (pre post : State) : (underrun m pre post).r.rUdf = post.r.rUdf := rfl
@[simp] theorem underrun_r_rRs (m : Nat) (pre post : State) : (underrun m pre post).r.rRs = post.r.rRs := rfl
@[simp] theorem underrun_r_armS (m : Nat) (pre post : State) : (underrun m pre post).r.armS = post.r.armS := rfl
@[simp] theorem underrun_r_enable (m : Nat) (pre post : State) : (underrun m pre post).r.enable = false := rfl
@[simp] theorem underrun_r_cycle (m : Nat) (pre post : State) : (underrun m pre post).r.cycle = 0 := rfl
@[simp] theorem underrun_r_consumeEvery (m : Nat) (pre post : State) :
    (underrun m pre post).r.consumeEvery = nextConsumeEvery pre.cfg pre.r.consumeEvery := rfl
@[simp] theorem underrun_r_rptValid (m : Nat) (pre post : State) : (underrun m pre post).r.rptValid = true := rfl
@[simp] theorem underrun_r_rptKind (m : Nat) (pre post : State) : (underrun m pre post).r.rptKind = .underrun := rfl
@[simp] theorem underrun_r_rptData (m : Nat) (pre post : State) :
    (underrun m pre post).r.rptData = post.r.rptData := rfl
@[simp] theorem underrun_r_rptPeriod (m : Nat) (pre post : State) :
    (underrun m pre post).r.rptPeriod = effectivePeriod (nextConsumeEvery pre.cfg pre.r.consumeEvery) m := rfl
@[simp] theorem underrun_mem (m : Nat) (pre post : State) : (underrun m pre post).mem = post.mem := rfl
@[simp] theorem underrun_stale (m : Nat) (pre post : State) : (underrun m pre post).stale = post.stale := rfl
@[simp] theorem underrun_x (m : Nat) (pre post : State) : (underrun m pre post).x = post.x := rfl
@[simp] theorem underrun_g (m : Nat) (pre post : State) : (underrun m pre post).g = post.g := rfl
@[simp] theorem underrun_rstIn (m : Nat) (pre post : State) : (underrun m pre post).rstIn = post.rstIn := rfl
@[simp] theorem underrun_env (m : Nat) (pre post : State) : (underrun m pre post).env = post.env := rfl

/-! ### resetAll -/

@[simp] theorem resetAll_cfg (s : State) : (resetAll s).cfg = s.cfg := rfl
@[simp] theorem resetAll_w (s : State) : (resetAll s).w = WriteDomain.afterReset s.cfg := rfl
@[simp] theorem resetAll_r (s : State) : (resetAll s).r = ReadDomain.afterReset s.cfg := rfl
@[simp] theorem resetAll_mem (s : State) : (resetAll s).mem = s.mem := rfl
@[simp] theorem resetAll_stale (s : State) : (resetAll s).stale = s.mem.map Prod.fst := rfl
@[simp] theorem resetAll_x (s : State) : (resetAll s).x = Crossing.afterReset := rfl
@[simp] theorem resetAll_g (s : State) : (resetAll s).g = Observation.afterReset := rfl
@[simp] theorem resetAll_rstIn (s : State) : (resetAll s).rstIn = true := rfl
@[simp] theorem resetAll_env_inputs (s : State) : (resetAll s).env.inputs = s.env.inputs := rfl
@[simp] theorem resetAll_env_producer (s : State) : (resetAll s).env.producer = Producer.afterReset := rfl
@[simp] theorem resetAll_env_draws (s : State) : (resetAll s).env.draws = s.env.draws := rfl
@[simp] theorem resetAll_env_drawIndex (s : State) : (resetAll s).env.drawIndex = s.env.drawIndex := rfl

/-! ### loaded -/

@[simp] theorem loaded_cfg (s : State) : s.loaded.cfg = s.cfg := rfl
@[simp] theorem loaded_w (s : State) : s.loaded.w = s.w := rfl
@[simp] theorem loaded_r (s : State) : s.loaded.r = s.r := rfl
@[simp] theorem loaded_mem (s : State) : s.loaded.mem = s.mem := rfl
@[simp] theorem loaded_stale (s : State) : s.loaded.stale = s.stale := rfl
@[simp] theorem loaded_x (s : State) : s.loaded.x = s.x := rfl
@[simp] theorem loaded_g (s : State) : s.loaded.g = s.g := rfl
@[simp] theorem loaded_rstIn (s : State) : s.loaded.rstIn = s.rstIn := rfl
@[simp] theorem loaded_env_inputs (s : State) : s.loaded.env.inputs = s.presented.2.1 := rfl
@[simp] theorem loaded_env_producer (s : State) : s.loaded.env.producer = s.presented.2.2 := rfl
@[simp] theorem loaded_env_draws (s : State) : s.loaded.env.draws = lineDraws s.presented.1 := rfl
@[simp] theorem loaded_env_drawIndex (s : State) : s.loaded.env.drawIndex = s.env.drawIndex + 1 := rfl

/-! ### withEnv -/

@[simp] theorem withEnv_cfg (s : State) (e : Environment) : ({ s with env := e } : State).cfg = s.cfg := rfl
@[simp] theorem withEnv_w (s : State) (e : Environment) : ({ s with env := e } : State).w = s.w := rfl
@[simp] theorem withEnv_r (s : State) (e : Environment) : ({ s with env := e } : State).r = s.r := rfl
@[simp] theorem withEnv_mem (s : State) (e : Environment) : ({ s with env := e } : State).mem = s.mem := rfl
@[simp] theorem withEnv_stale (s : State) (e : Environment) : ({ s with env := e } : State).stale = s.stale := rfl
@[simp] theorem withEnv_x (s : State) (e : Environment) : ({ s with env := e } : State).x = s.x := rfl
@[simp] theorem withEnv_g (s : State) (e : Environment) : ({ s with env := e } : State).g = s.g := rfl
@[simp] theorem withEnv_rstIn (s : State) (e : Environment) : ({ s with env := e } : State).rstIn = s.rstIn := rfl
@[simp] theorem withEnv_env (s : State) (e : Environment) : ({ s with env := e } : State).env = e := rfl

end Sys2Proof.Machine
end

