-- ==== Sys2Proof/Laws/Edges.lean ====
section
/-! SUPPORT. What each shared operation can do, said once: the operation steps, the frames of both edges, and admission. -/

namespace Sys2Proof.Machine

/-! ### The environment: no flag and no view looks at it (R30, R44) -/

@[simp] theorem wHeld_withEnv (s : State) (e : Environment) : ({ s with env := e } : State).wHeld = s.wHeld := rfl
@[simp] theorem rHeld_withEnv (s : State) (e : Environment) : ({ s with env := e } : State).rHeld = s.rHeld := rfl
@[simp] theorem wView_withEnv (s : State) (e : Environment) : ({ s with env := e } : State).wView = s.wView := rfl
@[simp] theorem rView_withEnv (s : State) (e : Environment) : ({ s with env := e } : State).rView = s.rView := rfl
@[simp] theorem armView_withEnv (s : State) (e : Environment) : ({ s with env := e } : State).armView = s.armView := rfl
@[simp] theorem wFull_withEnv (s : State) (e : Environment) : ({ s with env := e } : State).wFull = s.wFull := rfl
@[simp] theorem rEmpty_withEnv (s : State) (e : Environment) : ({ s with env := e } : State).rEmpty = s.rEmpty := rfl
@[simp] theorem wLevel_withEnv (s : State) (e : Environment) : ({ s with env := e } : State).wLevel = s.wLevel := rfl
@[simp] theorem rLevel_withEnv (s : State) (e : Environment) : ({ s with env := e } : State).rLevel = s.rLevel := rfl
@[simp] theorem cntRq_withEnv (s : State) (e : Environment) : ({ s with env := e } : State).cntRq = s.cntRq := rfl
@[simp] theorem cntWq_withEnv (s : State) (e : Environment) : ({ s with env := e } : State).cntWq = s.cntWq := rfl

/-! ### Operation steps -/

theorem enqueue_full {pre : State} (h : pre.wFull = true) (d : Nat) (post : State) :
    enqueue d pre post = raise .overflow post := if_pos h

theorem enqueue_room {pre : State} (h : pre.wFull = false) (d : Nat) (post : State) :
    enqueue d pre post = acceptRecord d pre post := by simp [enqueue, h]

theorem dequeue_empty {pre : State} (h : pre.rEmpty = true) (post : State) :
    dequeue pre post = raise .underflow post := if_pos h

theorem dequeue_visible {pre : State} (h : pre.rEmpty = false) (post : State) :
    dequeue pre post = consumeRecord pre post := by simp [dequeue, h]

/-- R126: the four branches of a tick, each with the condition under which it is taken. -/
theorem tick_cases (m : Nat) (pre post : State) :
    (pre.r.enable = false ∧ tick m pre post = post) ∨
    (pre.r.enable = true ∧ nextCycle pre.cfg pre.r.cycle < effectivePeriod pre.r.consumeEvery m ∧
      tick m pre post = { post with r.cycle := nextCycle pre.cfg pre.r.cycle }) ∨
    (pre.r.enable = true ∧ effectivePeriod pre.r.consumeEvery m ≤ nextCycle pre.cfg pre.r.cycle ∧
      pre.rEmpty = false ∧ tick m pre post = drain m pre post) ∨
    (pre.r.enable = true ∧ effectivePeriod pre.r.consumeEvery m ≤ nextCycle pre.cfg pre.r.cycle ∧
      pre.rEmpty = true ∧ tick m pre post = underrun m pre post) := by
  cases hen : pre.r.enable with
  | false => exact .inl ⟨rfl, by simp [tick, hen]⟩
  | true =>
    by_cases hc : nextCycle pre.cfg pre.r.cycle < effectivePeriod pre.r.consumeEvery m
    · exact .inr (.inl ⟨rfl, hc, by simp [tick, hen, hc]⟩)
    · cases hem : pre.rEmpty with
      | false => exact .inr (.inr (.inl ⟨rfl, by omega, rfl, by simp [tick, hen, hc, hem]⟩))
      | true => exact .inr (.inr (.inr ⟨rfl, by omega, rfl, by simp [tick, hen, hc, hem]⟩))

/-! ### Frames -/

/-- R88: a held W-edge only shifts the reset synchroniser. -/
theorem wEdge_held {s : State} (h : s.wHeld = true) (a : Bool) (op : State → State → State) :
    wEdge a op s = { s with w.wRs := shiftIn s.rstIn s.w.wRs } := by simp [wEdge, h, shiftWRs]

/-- R88: any other W-edge runs the operation on top of the frame. -/
theorem wEdge_released {s : State} (h : s.wHeld = false) (a : Bool) (op : State → State → State) :
    wEdge a op s = op s (writeFrame a s) := by
  cases hrc : s.cfg.hasRc <;> by_cases ha : a = s.w.armQ <;>
    simp [wEdge, h, hrc, armSample, syncR2W, shiftWRs, writeFrame, capture_eq_ite, ha]

/-- R96: a held R-edge only shifts the reset synchroniser. -/
theorem rEdge_held {s : State} (h : s.rHeld = true) (op : State → State → State) :
    rEdge op s = { s with r.rRs := shiftIn s.rstIn s.r.rRs } := by simp [rEdge, h, shiftRRs]

/-- R96: any other R-edge runs the operation on top of the frame. -/
theorem rEdge_released {s : State} (h : s.rHeld = false) (op : State → State → State) :
    rEdge op s = op s (readFrame s) := by
  cases hrc : s.cfg.hasRc <;> cases hav : s.armView <;>
    simp [rEdge, h, hrc, companionFrame, reportDefault, enableUpdate, armSync, syncW2R, shiftRRs, readFrame,
      capture_eq_ite, hav]

@[simp] theorem writeFrame_cfg (a : Bool) (s : State) : (writeFrame a s).cfg = s.cfg := rfl
@[simp] theorem writeFrame_r (a : Bool) (s : State) : (writeFrame a s).r = s.r := rfl
@[simp] theorem writeFrame_mem (a : Bool) (s : State) : (writeFrame a s).mem = s.mem := rfl
@[simp] theorem writeFrame_stale (a : Bool) (s : State) : (writeFrame a s).stale = s.stale := rfl
@[simp] theorem writeFrame_g (a : Bool) (s : State) : (writeFrame a s).g = s.g := rfl
@[simp] theorem writeFrame_rstIn (a : Bool) (s : State) : (writeFrame a s).rstIn = s.rstIn := rfl
@[simp] theorem writeFrame_env (a : Bool) (s : State) : (writeFrame a s).env = s.env := rfl
@[simp] theorem writeFrame_wptrBin (a : Bool) (s : State) : (writeFrame a s).w.wptrBin = s.w.wptrBin := rfl
@[simp] theorem writeFrame_wptrGray (a : Bool) (s : State) : (writeFrame a s).w.wptrGray = s.w.wptrGray := rfl
@[simp] theorem writeFrame_wOvf (a : Bool) (s : State) : (writeFrame a s).w.wOvf = s.w.wOvf := rfl
@[simp] theorem writeFrame_wRs (a : Bool) (s : State) : (writeFrame a s).w.wRs = shiftIn s.rstIn s.w.wRs := rfl
@[simp] theorem writeFrame_wgrayPrev (a : Bool) (s : State) : (writeFrame a s).x.wgrayPrev = s.x.wgrayPrev := rfl
@[simp] theorem writeFrame_wgrayDirty (a : Bool) (s : State) : (writeFrame a s).x.wgrayDirty = s.x.wgrayDirty := rfl
@[simp] theorem writeFrame_rgrayPrev (a : Bool) (s : State) : (writeFrame a s).x.rgrayPrev = s.x.rgrayPrev := rfl
@[simp] theorem writeFrame_rgrayDirty (a : Bool) (s : State) : (writeFrame a s).x.rgrayDirty = false := rfl

@[simp] theorem readFrame_cfg (s : State) : (readFrame s).cfg = s.cfg := rfl
@[simp] theorem readFrame_w (s : State) : (readFrame s).w = s.w := rfl
@[simp] theorem readFrame_mem (s : State) : (readFrame s).mem = s.mem := rfl
@[simp] theorem readFrame_stale (s : State) : (readFrame s).stale = s.stale := rfl
@[simp] theorem readFrame_g (s : State) : (readFrame s).g = s.g := rfl
@[simp] theorem readFrame_rstIn (s : State) : (readFrame s).rstIn = s.rstIn := rfl
@[simp] theorem readFrame_env (s : State) : (readFrame s).env = s.env := rfl
@[simp] theorem readFrame_rptrBin (s : State) : (readFrame s).r.rptrBin = s.r.rptrBin := rfl
@[simp] theorem readFrame_rptrGray (s : State) : (readFrame s).r.rptrGray = s.r.rptrGray := rfl
@[simp] theorem readFrame_rUdf (s : State) : (readFrame s).r.rUdf = s.r.rUdf := rfl
@[simp] theorem readFrame_rRs (s : State) : (readFrame s).r.rRs = shiftIn s.rstIn s.r.rRs := rfl
@[simp] theorem readFrame_cycle (s : State) : (readFrame s).r.cycle = s.r.cycle := rfl
@[simp] theorem readFrame_consumeEvery (s : State) : (readFrame s).r.consumeEvery = s.r.consumeEvery := rfl
@[simp] theorem readFrame_rptKind (s : State) : (readFrame s).r.rptKind = s.r.rptKind := rfl
@[simp] theorem readFrame_rptData (s : State) : (readFrame s).r.rptData = s.r.rptData := rfl
@[simp] theorem readFrame_rptPeriod (s : State) : (readFrame s).r.rptPeriod = s.r.rptPeriod := rfl
@[simp] theorem readFrame_wgrayPrev (s : State) : (readFrame s).x.wgrayPrev = s.x.wgrayPrev := rfl
@[simp] theorem readFrame_wgrayDirty (s : State) : (readFrame s).x.wgrayDirty = false := rfl
@[simp] theorem readFrame_rgrayPrev (s : State) : (readFrame s).x.rgrayPrev = s.x.rgrayPrev := rfl
@[simp] theorem readFrame_rgrayDirty (s : State) : (readFrame s).x.rgrayDirty = s.x.rgrayDirty := rfl
@[simp] theorem readFrame_armPrev (s : State) : (readFrame s).x.armPrev = s.x.armPrev := rfl

/-! ### Flags of a state with another environment -/

@[simp] theorem withEnv_wHeld (s : State) (e : Environment) : ({ s with env := e } : State).wHeld = s.wHeld := rfl
@[simp] theorem withEnv_rHeld (s : State) (e : Environment) : ({ s with env := e } : State).rHeld = s.rHeld := rfl
@[simp] theorem withEnv_wFull (s : State) (e : Environment) : ({ s with env := e } : State).wFull = s.wFull := rfl
@[simp] theorem withEnv_rEmpty (s : State) (e : Environment) : ({ s with env := e } : State).rEmpty = s.rEmpty := rfl
@[simp] theorem withEnv_wView (s : State) (e : Environment) : ({ s with env := e } : State).wView = s.wView := rfl
@[simp] theorem withEnv_rView (s : State) (e : Environment) : ({ s with env := e } : State).rView = s.rView := rfl
@[simp] theorem withEnv_armView (s : State) (e : Environment) : ({ s with env := e } : State).armView = s.armView := rfl

theorem not_held_of_room {s : State} (h : s.wFull = false) : s.wHeld = false := by
  simp [State.wFull] at h; exact h.1

theorem not_held_of_visible {s : State} (h : s.rEmpty = false) : s.rHeld = false := by
  simp [State.rEmpty] at h; exact h.1

/-! ### Admission -/

theorem perform_of_wellFormed {i : Instr} {s : State} (h : i.wellFormed s.cfg = true) (next : State) :
    perform i s next = .next next := by
  simp only [Instr.wellFormed, Bool.and_eq_true] at h
  simp [perform, h]

theorem perform_next {i : Instr} {s next t : State} (h : perform i s next = .next t) :
    i.wellFormed s.cfg = true ∧ t = next := by
  unfold perform at h
  split at h
  · cases h
  · split at h
    · cases h
    · simp_all [Instr.wellFormed]

end Sys2Proof.Machine
end

