-- ==== Sys2Proof/Laws/Encoding.lean ====
section
/-! SUPPORT. The fields of a sample word (R73, R74): a word is its operand field with its two select bits above it. -/

namespace Sys2Proof

/-- The word with operand `d`, select bits `e` and `a` (R73; R74 with `e` and `t`). -/
def word (w : Nat) (d : Nat) (e a : Bool) : Nat :=
  (if a then 2 ^ (w + 1) else 0) + (if e then 2 ^ w else 0) + d

theorem word_lt {w d : Nat} (h : d < 2 ^ w) (e a : Bool) : word w d e a < 2 ^ (w + 2) := by
  have e1 : 2 ^ (w + 1) = 2 * 2 ^ w := by ring
  have e2 : 2 ^ (w + 2) = 4 * 2 ^ w := by ring
  cases e <;> cases a <;> simp [word] <;> omega

theorem word_div {w d : Nat} (h : d < 2 ^ w) (e a : Bool) :
    word w d e a / 2 ^ w = (if a then 2 else 0) + if e then 1 else 0 := by
  have hp := Nat.two_pow_pos w
  have e1 : word w d e a = 2 ^ w * ((if a then 2 else 0) + if e then 1 else 0) + d := by
    cases e <;> cases a <;> simp [word] <;> ring
  rw [e1, Nat.mul_add_div hp, Nat.div_eq_of_lt h, Nat.add_zero]

theorem operandField_word {w d : Nat} (h : d < 2 ^ w) (e a : Bool) : operandField w (word w d e a) = d := by
  have e1 : word w d e a = 2 ^ w * ((if a then 2 else 0) + if e then 1 else 0) + d := by
    cases e <;> cases a <;> simp [word] <;> ring
  rw [operandField, e1, Nat.mul_add_mod, Nat.mod_eq_of_lt h]

theorem word_testBit_low {w d : Nat} (h : d < 2 ^ w) (e a : Bool) : (word w d e a).testBit w = e := by
  rw [Nat.testBit_eq_decide_div_mod_eq, word_div h]
  cases e <;> cases a <;> rfl

theorem word_testBit_high {w d : Nat} (h : d < 2 ^ w) (e a : Bool) : (word w d e a).testBit (w + 1) = a := by
  rw [Nat.testBit_eq_decide_div_mod_eq, pow_succ, ← Nat.div_div_eq_div_mul, word_div h]
  cases e <;> cases a <;> rfl

/-- Every word of a format's width is its operand field and its two select bits. -/
theorem eq_word {w x : Nat} (h : x < 2 ^ (w + 2)) :
    x = word w (operandField w x) (x.testBit w) (x.testBit (w + 1)) := by
  have e2 : 2 ^ (w + 2) = 4 * 2 ^ w := by ring
  have e1 : 2 ^ (w + 1) = 2 ^ w * 2 := by ring
  have hq : x / 2 ^ w < 4 := Nat.div_lt_of_lt_mul (by omega)
  have hx := Nat.mod_add_div x (2 ^ w)
  rw [Nat.testBit_eq_decide_div_mod_eq, Nat.testBit_eq_decide_div_mod_eq, e1, ← Nat.div_div_eq_div_mul]
  unfold word operandField
  generalize x / 2 ^ w = q at *
  have hq' : q = 0 ∨ q = 1 ∨ q = 2 ∨ q = 3 := by omega
  rcases hq' with rfl | rfl | rfl | rfl <;> simp <;> omega

/-! What the encoder makes, as such words. -/

theorem encode_wNop (c : Config) (d : Nat) : encode c (.wNop d) = ⟨.we, word c.dataBits d false false⟩ := by
  simp [encode, word]
theorem encode_wEnq (c : Config) (d : Nat) : encode c (.wEnq d) = ⟨.we, word c.dataBits d true false⟩ := by
  simp [encode, word]
theorem encode_wArm (c : Config) (d : Nat) : encode c (.wArm d) = ⟨.we, word c.dataBits d false true⟩ := by
  simp [encode, word]
theorem encode_wEnqArm (c : Config) (d : Nat) : encode c (.wEnqArm d) = ⟨.we, word c.dataBits d true true⟩ := by
  simp [encode, word]
theorem encode_rNop (c : Config) (m : Nat) : encode c (.rNop m) = ⟨.re, word c.periodBits m false false⟩ := by
  simp [encode, word]
theorem encode_rDeq (c : Config) (m : Nat) : encode c (.rDeq m) = ⟨.re, word c.periodBits m true false⟩ := by
  simp [encode, word]
theorem encode_rcTick (c : Config) (m : Nat) : encode c (.rcTick m) = ⟨.re, word c.periodBits m false true⟩ := by
  simp [encode, word]

end Sys2Proof
end

