-- ==== Sys2Proof/Laws/Exec.lean ====
section
/-! SUPPORT. What an operation can do, said once: `exec_next_cases` inverts every operation that completes, and a
well-formed operation completes. -/

namespace Sys2Proof.Machine

/-- The state an operation leaves. -/
def after (i : Instr) (s : State) : State :=
  match i with
  | .wNop _ => wEdge false noOperation s
  | .wEnq d => wEdge false (enqueue d) s
  | .wArm _ => wEdge true noOperation s
  | .wEnqArm d => wEdge true (enqueue d) s
  | .rNop _ => rEdge noOperation s
  | .rDeq _ => rEdge dequeue s
  | .rcTick m => rEdge (tick m) s
  | .resetAssert => resetAll s
  | .resetDeassert => { s with rstIn := false }

theorem exec_eq_perform (i : Instr) (s : State) : exec i s = perform i s (after i s) := by
  cases i <;> rfl

/-- A well-formed operation completes, in every state. -/
theorem exec_of_wellFormed {i : Instr} {s : State} (h : i.wellFormed s.cfg = true) : exec i s = .next (after i s) := by
  rw [exec_eq_perform, perform_of_wellFormed h]

/-- An operation that completes is well formed, and leaves `after`. -/
theorem exec_next {i : Instr} {s t : State} (h : exec i s = .next t) : i.wellFormed s.cfg = true ∧ t = after i s :=
  perform_next (exec_eq_perform i s ▸ h)

theorem exec_next_iff {i : Instr} {s t : State} :
    exec i s = .next t ↔ i.wellFormed s.cfg = true ∧ t = after i s :=
  ⟨exec_next, fun ⟨h, e⟩ => e ▸ exec_of_wellFormed h⟩

/-- No operation faults: the one fault is the environment's (R154). -/
theorem exec_ne_fault (i : Instr) (s : State) (r : Fault) : exec i s ≠ .fault r := by
  rw [exec_eq_perform]
  unfold perform
  split
  · simp
  · split <;> simp

/-- Everything an operation that completes can have done (R88, R96, R150, R151): a held edge, one of the operation steps
on top of its domain's frame, or a reset event. -/
theorem exec_next_cases {i : Instr} {s t : State} (h : exec i s = .next t) :
    (i.format = .we ∧ s.wHeld = true ∧ t = { s with w.wRs := shiftIn s.rstIn s.w.wRs }) ∨
    (i.format = .we ∧ s.wHeld = false ∧ requestsEnqueue i = false ∧ t = writeFrame (armLevel i) s) ∨
    (∃ d, (i = .wEnq d ∨ i = .wEnqArm d) ∧ d < 2 ^ s.cfg.dataBits ∧ s.wFull = false ∧
      t = acceptRecord d s (writeFrame (armLevel i) s)) ∨
    (∃ d, (i = .wEnq d ∨ i = .wEnqArm d) ∧ s.wHeld = false ∧ s.wFull = true ∧
      t = raise .overflow (writeFrame (armLevel i) s)) ∨
    (i.format = .re ∧ s.rHeld = true ∧ t = { s with r.rRs := shiftIn s.rstIn s.r.rRs }) ∨
    (∃ m, i = .rNop m ∧ s.rHeld = false ∧ t = readFrame s) ∨
    (∃ m, i = .rDeq m ∧ s.cfg.hasRc = false ∧ s.rEmpty = false ∧ t = consumeRecord s (readFrame s)) ∨
    (∃ m, i = .rDeq m ∧ s.cfg.hasRc = false ∧ s.rHeld = false ∧ s.rEmpty = true ∧
      t = raise .underflow (readFrame s)) ∨
    (∃ m, i = .rcTick m ∧ s.cfg.hasRc = true ∧ m < 2 ^ s.cfg.periodBits ∧ s.rHeld = false ∧
      t = tick m s (readFrame s)) ∨
    (i = .resetAssert ∧ t = resetAll s) ∨
    (i = .resetDeassert ∧ t = { s with rstIn := false }) := by
  obtain ⟨hwf, rfl⟩ := exec_next h
  simp only [Instr.wellFormed, Bool.and_eq_true] at hwf
  obtain ⟨hfit, hport⟩ := hwf
  have write : ∀ (a : Bool) (d : Nat), d < 2 ^ s.cfg.dataBits → s.wHeld = false → i = .wEnq d ∨ i = .wEnqArm d →
      armLevel i = a → after i s = wEdge a (enqueue d) s →
      (∃ d, (i = .wEnq d ∨ i = .wEnqArm d) ∧ d < 2 ^ s.cfg.dataBits ∧ s.wFull = false ∧
        after i s = acceptRecord d s (writeFrame (armLevel i) s)) ∨
      (∃ d, (i = .wEnq d ∨ i = .wEnqArm d) ∧ s.wHeld = false ∧ s.wFull = true ∧
        after i s = raise .overflow (writeFrame (armLevel i) s)) := by
    intro a d hd hh hi ha he
    subst ha
    cases hf : s.wFull with
    | false => exact .inl ⟨d, hi, hd, rfl, by rw [he, wEdge_released hh, enqueue_room hf]⟩
    | true => exact .inr ⟨d, hi, hh, rfl, by rw [he, wEdge_released hh, enqueue_full hf]⟩
  cases i with
  | wNop d =>
    cases hh : s.wHeld with
    | true => exact .inl ⟨rfl, rfl, wEdge_held hh _ _⟩
    | false => exact .inr (.inl ⟨rfl, rfl, rfl, wEdge_released hh _ _⟩)
  | wArm d =>
    cases hh : s.wHeld with
    | true => exact .inl ⟨rfl, rfl, wEdge_held hh _ _⟩
    | false => exact .inr (.inl ⟨rfl, rfl, rfl, wEdge_released hh _ _⟩)
  | wEnq d =>
    cases hh : s.wHeld with
    | true => exact .inl ⟨rfl, rfl, wEdge_held hh _ _⟩
    | false =>
      rcases write false d (by simpa [Instr.fitsFormat, fits] using hfit) hh (.inl rfl) rfl rfl with h | h
      · exact .inr (.inr (.inl h))
      · rw [hh] at h; exact .inr (.inr (.inr (.inl h)))
  | wEnqArm d =>
    cases hh : s.wHeld with
    | true => exact .inl ⟨rfl, rfl, wEdge_held hh _ _⟩
    | false =>
      rcases write true d (by simpa [Instr.fitsFormat, fits] using hfit) hh (.inr rfl) rfl rfl with h | h
      · exact .inr (.inr (.inl h))
      · rw [hh] at h; exact .inr (.inr (.inr (.inl h)))
  | rNop m =>
    cases hh : s.rHeld with
    | true => exact .inr (.inr (.inr (.inr (.inl ⟨rfl, rfl, rEdge_held hh _⟩))))
    | false => exact .inr (.inr (.inr (.inr (.inr (.inl ⟨m, rfl, rfl, rEdge_released hh _⟩)))))
  | rDeq m =>
    have hrc : s.cfg.hasRc = false := by simp [Instr.portsPresent] at hport; exact hport.1
    cases hh : s.rHeld with
    | true => exact .inr (.inr (.inr (.inr (.inl ⟨rfl, rfl, rEdge_held hh _⟩))))
    | false =>
      have he : after (.rDeq m) s = dequeue s (readFrame s) := rEdge_released hh _
      cases hem : s.rEmpty with
      | false =>
        exact .inr (.inr (.inr (.inr (.inr (.inr (.inl ⟨m, rfl, hrc, rfl, he.trans (dequeue_visible hem _)⟩))))))
      | true =>
        exact .inr (.inr (.inr (.inr (.inr (.inr (.inr (.inl
          ⟨m, rfl, hrc, rfl, rfl, he.trans (dequeue_empty hem _)⟩)))))))
  | rcTick m =>
    cases hh : s.rHeld with
    | true => exact .inr (.inr (.inr (.inr (.inl ⟨rfl, rfl, rEdge_held hh _⟩))))
    | false =>
      exact .inr (.inr (.inr (.inr (.inr (.inr (.inr (.inr (.inl
        ⟨m, rfl, by simpa [Instr.portsPresent] using hport, by simpa [Instr.fitsFormat, fits] using hfit, rfl,
          rEdge_released hh _⟩))))))))
  | resetAssert => exact .inr (.inr (.inr (.inr (.inr (.inr (.inr (.inr (.inr (.inl ⟨rfl, rfl⟩)))))))))
  | resetDeassert => exact .inr (.inr (.inr (.inr (.inr (.inr (.inr (.inr (.inr (.inr ⟨rfl, rfl⟩)))))))))

/-- R157: no operation changes a parameter. -/
theorem exec_cfg {i : Instr} {s t : State} (h : exec i s = .next t) : t.cfg = s.cfg := by
  rcases exec_next_cases h with ⟨-, -, rfl⟩ | ⟨-, -, -, rfl⟩ | ⟨d, -, -, -, rfl⟩ | ⟨d, -, -, -, rfl⟩ | ⟨-, -, rfl⟩ |
    ⟨m, -, -, rfl⟩ | ⟨m, -, -, -, rfl⟩ | ⟨m, -, -, -, -, rfl⟩ | ⟨m, -, -, -, -, rfl⟩ | ⟨-, rfl⟩ | ⟨-, rfl⟩ <;>
    try rfl
  rcases tick_cases m s (readFrame s) with ⟨-, e⟩ | ⟨-, -, e⟩ | ⟨-, -, -, e⟩ | ⟨-, -, -, e⟩ <;> rw [e] <;> rfl

end Sys2Proof.Machine
end

