-- ==== Sys2Proof/Laws/Memory.lean ====
section
/-! SUPPORT. The storage array (R17, R45): reads after writes, and the canonical form every operation keeps. -/

namespace Sys2Proof.Machine

@[simp] theorem Memory.read_nil (slot : Nat) : Memory.read [] slot = none := rfl

theorem Memory.read_write_same (m : Memory) (slot : Nat) (v : Nat) : (m.write slot v).read slot = some v := by
  induction m with
  | nil => simp [Memory.write, Memory.read]
  | cons cell m ih =>
    obtain ⟨a, u⟩ := cell
    simp only [Memory.write]
    split
    · simp [Memory.read]
    · split
      · simp [Memory.read]
      · simp [Memory.read, ih, Ne.symm ‹¬ slot = a›]

theorem Memory.read_write_other (m : Memory) {slot other : Nat} (v : Nat) (h : other ≠ slot) :
    (m.write slot v).read other = m.read other := by
  induction m with
  | nil => simp [Memory.write, Memory.read, Ne.symm h]
  | cons cell m ih =>
    obtain ⟨a, u⟩ := cell
    simp only [Memory.write]
    split
    · simp [Memory.read, Ne.symm h]
    · split
      · subst slot
        simp [Memory.read, Ne.symm h]
      · simp [Memory.read, ih]

theorem Memory.risingAbove_write {m : Memory} {b slot : Nat} (v : Nat) (hb : b < slot)
    (h : Memory.risingAbove b m = true) : Memory.risingAbove b (m.write slot v) = true := by
  induction m generalizing b with
  | nil => simp [Memory.write, Memory.risingAbove, hb]
  | cons cell m ih =>
    obtain ⟨a, u⟩ := cell
    simp only [Memory.risingAbove, Bool.and_eq_true, decide_eq_true_eq] at h
    simp only [Memory.write]
    split
    · simp [Memory.risingAbove, *]
    · split
      · subst slot
        simp [Memory.risingAbove, *]
      · simp [Memory.risingAbove, h.1, ih (show a < slot by omega) h.2]

/-- Every memory operation keeps the canonical form: the one that writes is `Memory.write`. -/
theorem Memory.write_wf {m : Memory} (slot : Nat) (v : Nat) (h : m.wf = true) : (m.write slot v).wf = true := by
  cases m with
  | nil => rfl
  | cons cell m =>
    obtain ⟨a, u⟩ := cell
    simp only [Memory.wf] at h
    simp only [Memory.write]
    split
    · simp [Memory.wf, Memory.risingAbove, *]
    · split
      · subst slot
        simpa [Memory.wf] using h
      · simpa [Memory.wf] using Memory.risingAbove_write v (show a < slot by omega) h

theorem Memory.mem_write {m : Memory} {slot : Nat} {v : Nat} {cell : Nat × Nat} (h : cell ∈ m.write slot v) :
    cell = (slot, v) ∨ cell ∈ m := by
  induction m with
  | nil => simpa [Memory.write] using h
  | cons head m ih =>
    obtain ⟨a, u⟩ := head
    simp only [Memory.write] at h
    split at h
    · simpa using h
    · split at h
      · rcases List.mem_cons.mp h with h | h <;> simp [h]
      · rcases List.mem_cons.mp h with h | h
        · simp [h]
        · rcases ih h with h | h <;> simp [h]

theorem Memory.read_mem {m : Memory} {slot : Nat} {v : Nat} (h : m.read slot = some v) : (slot, v) ∈ m := by
  induction m with
  | nil => simp at h
  | cons cell m ih =>
    obtain ⟨a, u⟩ := cell
    simp only [Memory.read] at h
    split at h
    · simp_all
    · exact List.mem_cons_of_mem _ (ih h)

theorem Memory.read_eq_none {m : Memory} {slot : Nat} : m.read slot = none ↔ slot ∉ m.map Prod.fst := by
  induction m with
  | nil => simp
  | cons cell m ih =>
    obtain ⟨a, u⟩ := cell
    by_cases h : a = slot
    · simp [Memory.read, h]
    · simp [Memory.read, h, ih, Ne.symm h]

/-! ### What a slot is specified to hold (R45) -/

/-- R45: a slot an accepted enqueue writes is specified from then on. -/
theorem acceptRecord_slotContent_same (d : Nat) (pre post : State) :
    (acceptRecord d pre post).slotContent pre.w.wptrBin = some d := by
  simp [State.slotContent, Memory.read_write_same]

/-- R45: an accepted enqueue leaves every other slot as it was. -/
theorem acceptRecord_slotContent_other (d : Nat) (pre post : State) {slot : Nat} (h : slot ≠ pre.w.wptrBin) :
    (acceptRecord d pre post).slotContent slot = pre.slotContent slot := by
  simp [State.slotContent, Memory.read_write_other _ _ h, h]

/-- R45, R150: after a reset assertion no slot is specified. -/
theorem resetAll_slotContent (s : State) (slot : Nat) : (resetAll s).slotContent slot = none := by
  by_cases h : slot ∈ s.mem.map Prod.fst
  · exact if_pos h
  · exact (if_neg h).trans (Memory.read_eq_none.mpr h)

/-- R17: a slot that is specified presents its record. -/
theorem slotRecord_of_content {s : State} {slot v : Nat} (h : s.slotContent slot = some v) : s.slotRecord slot = v := by
  simp [State.slotRecord, h]

/-- The reset state's memory has the canonical form. -/
theorem reset_mem_wf : State.reset.mem.wf = true := rfl

/-- Blanking the records commutes with a write: where a record goes does not depend on records. -/
theorem Memory.map_write (m : Memory) (f : Nat → Nat) (slot : Nat) (v : Nat) :
    (m.write slot v).map (fun cell => (cell.1, f cell.2)) =
      Memory.write (m.map fun cell => (cell.1, f cell.2)) slot (f v) := by
  induction m with
  | nil => rfl
  | cons cell m ih =>
    obtain ⟨a, u⟩ := cell
    simp only [Memory.write, List.map_cons]
    split
    · rfl
    · split
      · rfl
      · simp [ih]

end Sys2Proof.Machine
end

