-- ==== Sys2Proof/Laws/PerInstr.lean ====
section
/-! SUPPORT. The family FitsWidth: a well-formed operation's encoded word belongs to its own format and has that
format's width (R72, R73, R74, R75). -/

namespace Sys2Proof.Laws.FitsWidth

/-- The word is the format's, and no wider. -/
def Statement (i : Instr) : Prop :=
  ∀ c : Config, i.wellFormed c = true → (encode c i).fmt = i.format ∧ (encode c i).word < 2 ^ i.format.width c

theorem operand_lt {c : Config} {i : Instr} (h : i.wellFormed c = true) : i.fitsFormat c = true := by
  simp only [Instr.wellFormed, Bool.and_eq_true] at h; exact h.1

theorem wNop (d : Nat) : Statement (.wNop d) := fun c h =>
  ⟨rfl, encode_wNop c d ▸ word_lt (of_decide_eq_true (operand_lt h)) _ _⟩
theorem wEnq (d : Nat) : Statement (.wEnq d) := fun c h =>
  ⟨rfl, encode_wEnq c d ▸ word_lt (of_decide_eq_true (operand_lt h)) _ _⟩
theorem wArm (d : Nat) : Statement (.wArm d) := fun c h =>
  ⟨rfl, encode_wArm c d ▸ word_lt (of_decide_eq_true (operand_lt h)) _ _⟩
theorem wEnqArm (d : Nat) : Statement (.wEnqArm d) := fun c h =>
  ⟨rfl, encode_wEnqArm c d ▸ word_lt (of_decide_eq_true (operand_lt h)) _ _⟩
theorem rNop (m : Nat) : Statement (.rNop m) := fun c h =>
  ⟨rfl, encode_rNop c m ▸ word_lt (of_decide_eq_true (operand_lt h)) _ _⟩
theorem rDeq (m : Nat) : Statement (.rDeq m) := fun c h =>
  ⟨rfl, encode_rDeq c m ▸ word_lt (of_decide_eq_true (operand_lt h)) _ _⟩
theorem rcTick (m : Nat) : Statement (.rcTick m) := fun c h =>
  ⟨rfl, encode_rcTick c m ▸ word_lt (of_decide_eq_true (operand_lt h)) _ _⟩
theorem resetAssert : Statement .resetAssert := fun _ _ => ⟨rfl, by simp [encode, Instr.format, Format.width]⟩
theorem resetDeassert : Statement .resetDeassert := fun _ _ => ⟨rfl, by simp [encode, Instr.format, Format.width]⟩

end Sys2Proof.Laws.FitsWidth
end

