-- ==== Sys2Proof/Laws/Step.lean ====
section
/-! SUPPORT. What a step can do, said once (`step_next`), steps as runs, and the one induction over runs. -/

namespace Sys2Proof.Machine

/-- A step that completes ran one operation, in the same state but for its environment. -/
theorem step_next {s t : State} (h : step s = .next t) : ∃ i e, exec i { s with env := e } = .next t := by
  unfold step runLine at h
  split at h
  · cases h
  · split at h
    · exact ⟨_, _, h⟩
    · cases h

/-- A step that completes is a run of one operation. -/
theorem step_run {s t : State} (h : step s = .next t) : ∃ i, Run s [i] t := by
  obtain ⟨i, e, h⟩ := step_next h
  exact ⟨i, .more e h (.done t)⟩

/-- What every operation keeps whatever the environment, every step keeps. -/
theorem step_keeps {Inv : State → Prop}
    (keeps : ∀ (s t : State) (e : Environment) (i : Instr), Inv s → exec i { s with env := e } = .next t → Inv t)
    {s t : State} (h : Inv s) (hs : step s = .next t) : Inv t := by
  obtain ⟨i, e, hs⟩ := step_next hs
  exact keeps s t e i h hs

/-- What every operation keeps whatever the environment, every run keeps. -/
theorem run_keeps {Inv : State → Prop}
    (keeps : ∀ (s t : State) (e : Environment) (i : Instr), Inv s → exec i { s with env := e } = .next t → Inv t)
    {s t : State} {is : List Instr} (h : Inv s) (hr : Run s is t) : Inv t := by
  induction hr with
  | done s => exact h
  | more e first rest ih => exact ih (keeps _ _ e _ h first)

/-- What every operation but a reset assertion keeps, every run without one keeps. -/
theorem run_keeps_noReset {Inv : State → Prop}
    (keeps : ∀ (s t : State) (e : Environment) (i : Instr), i ≠ .resetAssert → Inv s →
      exec i { s with env := e } = .next t → Inv t)
    {s t : State} {is : List Instr} (hn : NoReset is) (h : Inv s) (hr : Run s is t) : Inv t := by
  induction hr with
  | done s => exact h
  | @more s t u i is e first rest ih =>
    simp only [NoReset, List.mem_cons, not_or] at hn
    exact ih hn.2 (keeps _ _ e _ (Ne.symm hn.1) h first)

theorem Run.trans {s t u : State} {is js : List Instr} (h : Run s is t) (h' : Run t js u) : Run s (is ++ js) u := by
  induction h with
  | done s => exact h'
  | more e first rest ih => exact .more e first (ih h')

theorem presented_line {s : State} {l : Line} {rest : List Stimulus} (h : s.env.inputs = .line l :: rest) :
    s.presented = (l, rest, s.env.producer) := by simp [State.presented, h, nextLine]

/-- The state a line of the script is run in. -/
theorem loaded_line {s : State} {l : Line} {rest : List Stimulus} (h : s.env.inputs = .line l :: rest) :
    s.loaded = { s with env := {
      inputs := rest, producer := s.env.producer, draws := lineDraws l, drawIndex := s.env.drawIndex + 1 } } := by
  simp [State.loaded, presented_line h]

theorem step_line {s : State} {l : Line} {rest : List Stimulus} (h : s.env.inputs = .line l :: rest) :
    step s = runLine l s.loaded := by simp [step, presented_line h]

end Sys2Proof.Machine
end

