-- ==== Sys2Proof/Tests/Slice0.lean ====
section
/-! SUPPORT. The model's own tests. Expected values are those of 95_test_vectors.md, cited by their ids, or worked by
hand from the rule cited. Then, for every obligation with hypotheses, states and operands that meet them all. -/

namespace Sys2Proof.Machine

/-! ### WellFormed: each check refuses an ill-formed term -/

/-- The reference instance without the companion. -/
def plainCfg : Config := { Config.reference with hasRc := false }

theorem test_wellFormed_refuses_wide_record :
    Instr.wellFormed Config.reference (.wNop 0x1000000) = false ∧
    Instr.wellFormed Config.reference (.wEnq 0x1000000) = false ∧
    Instr.wellFormed Config.reference (.wArm 0x1000000) = false ∧
    Instr.wellFormed Config.reference (.wEnqArm 0x1000000) = false := by decide

theorem test_wellFormed_refuses_wide_modifier :
    Instr.wellFormed Config.reference (.rNop 0x10000) = false ∧
    Instr.wellFormed plainCfg (.rDeq 0x10000) = false ∧
    Instr.wellFormed Config.reference (.rcTick 0x10000) = false := by decide

theorem test_wellFormed_refuses_absent_companion :
    Instr.wellFormed plainCfg (.wArm 0) = false ∧ Instr.wellFormed plainCfg (.wEnqArm 0) = false ∧
    Instr.wellFormed plainCfg (.rcTick 0) = false ∧ Instr.wellFormed plainCfg (.rNop 1) = false ∧
    Instr.wellFormed plainCfg (.rDeq 1) = false := by decide

theorem test_wellFormed_refuses_second_consumer : Instr.wellFormed Config.reference (.rDeq 0) = false := by decide

theorem test_config_bounds :
    Config.wf { Config.reference with addrBits := 0 } = false ∧ Config.wf { Config.reference with dataBits := 0 } = false ∧
    Config.wf { Config.reference with syncStages := 1 } = false ∧
    Config.wf { Config.reference with rstStages := 0 } = false ∧
    Config.wf { Config.reference with periodBits := 0 } = false ∧
    Config.wf { Config.reference with delayBound := 0 } = false ∧ Config.wf Config.reference = true := by decide

/-! ### Encoding: 95_test_vectors.md §2.2, each word written out from R73, R74, R75 -/

theorem test_decode_wNop : decode Config.reference .we 0x0000000 = .ok (.wNop 0) := by decide
theorem test_decode_wEnq : decode Config.reference .we 0x1ABCDEF = .ok (.wEnq 0xABCDEF) := by decide
theorem test_decode_wArm : decode Config.reference .we 0x2000000 = .ok (.wArm 0) := by decide
theorem test_decode_wEnqArm : decode Config.reference .we 0x3000005 = .ok (.wEnqArm 5) := by decide
theorem test_decode_rNop : decode plainCfg .re 0x00000 = .ok (.rNop 0) := by decide
theorem test_decode_rDeq : decode plainCfg .re 0x10000 = .ok (.rDeq 0) := by decide
theorem test_decode_rcTick : decode Config.reference .re 0x20003 = .ok (.rcTick 3) := by decide
theorem test_decode_reset : decode plainCfg .sy 1 = .ok .resetAssert ∧ decode plainCfg .sy 0 = .ok .resetDeassert := by
  decide

/-- R72: a word one bit wider than its format is no word of it. -/
theorem test_decode_refuses_wide_words :
    decode Config.reference .we 0x4000000 = .error .wordTooWide ∧
    decode Config.reference .re 0x40000 = .error .wordTooWide ∧ decode Config.reference .sy 2 = .error .wordTooWide := by
  decide

/-- The table's words, by the table's number of bits and by whole bytes. -/
theorem test_decodeTableWord :
    decodeTableWord 26 0x0000000 = some (.wNop 0) ∧ decodeTableWord 32 0x1ABCDEF = some (.wEnq 0xABCDEF) ∧
    decodeTableWord 32 0x2000000 = some (.wArm 0) ∧ decodeTableWord 32 0x3000005 = some (.wEnqArm 5) ∧
    decodeTableWord 18 0x00000 = some (.rNop 0) ∧ decodeTableWord 24 0x10000 = some (.rDeq 0) ∧
    decodeTableWord 24 0x20003 = some (.rcTick 3) ∧ decodeTableWord 8 1 = some .resetAssert ∧
    decodeTableWord 1 0 = some .resetDeassert ∧ decodeTableWord 24 0x30000 = none := by decide

/-! ### Values of the gray code (95_test_vectors.md §2.1) -/

theorem test_gray_two_bits : [0, 1, 2, 3].map gray = [0b00, 0b01, 0b11, 0b10] := by decide
theorem test_gray_three_bits :
    [0, 1, 2, 3, 4, 5, 6, 7].map gray = [0b000, 0b001, 0b011, 0b010, 0b110, 0b111, 0b101, 0b100] := by decide
theorem test_bin_three_bits : bin 3 0b101 = 6 ∧ bin 3 0b100 = 7 := by decide

/-- R52: `f0` lies highest. -/
theorem test_packRecord : packRecord 1 2 3 = 0x010203#24 := by decide

/-! ### One step of each operation -/

/-- Whether an outcome is a next state with the property `p`. -/
def nextWith (p : State → Bool) (o : Host.Outcome State Fault Refusal) : Bool :=
  match o with
  | .next t => p t
  | .fault _ => false
  | .refused _ => false

/-- The released reset state, every draw the new value. -/
def fresh (c : Config) : State := { State.released c with env.draws := Draws.allNew }

/-- An environment that draws every new value and presents nothing. -/
def quiet : Environment := (fresh plainCfg).env

/-- One record accepted and visible to the read domain (RV-2's state). -/
def oneRecord (c : Config) : State :=
  { fresh c with
    w.wptrBin := 1, w.wptrGray := 0b01, r.rq := [0b01, 0b01], mem := [(0, 0x0A0B0C)]
    g.enqCount := 1, g.accepted := [0x0A0B0C] }

/-- Three records accepted and none visible yet (WV-3's state). -/
def fullRing (c : Config) : State :=
  { fresh c with
    w.wptrBin := 3, w.wptrGray := 0b10, mem := [(0, 1), (1, 2), (2, 3)], x.wgrayPrev := 0b11, x.wgrayDirty := true
    g.enqCount := 3, g.accepted := [1, 2, 3] }

/-- WV-6. -/
theorem test_wNop_captures :
    nextWith (fun t => t.w.wq == [0b01, 0b00] && !t.x.rgrayDirty)
      (exec (.wNop 0) { fullRing plainCfg with r.rptrGray := 0b01, x.rgrayDirty := true }) = true := by decide

/-- WV-9. -/
theorem test_wEnq_held :
    nextWith (fun t => t.w.wRs == [false, true] && t.mem == [] && !t.w.wOvf && t.wFull)
      (exec (.wEnq 0xEE) { fresh plainCfg with w.wRs := [true, true] }) = true := by decide

/-- WV-1. -/
theorem test_wEnq_accepted :
    nextWith (fun t => t.mem == [(0, 0x0A0B0C)] && t.w.wptrBin == 1 && t.w.wptrGray == 0b01 && t.x.wgrayDirty &&
        t.g.accepted == [0x0A0B0C] && !t.wFull && !t.w.wOvf)
      (exec (.wEnq 0x0A0B0C) (fresh plainCfg)) = true := by decide

/-- ARM-0. -/
theorem test_wArm :
    nextWith (fun t => t.w.armQ && !t.x.armPrev && t.x.armDirty && t.g.enqCount == 0)
      (exec (.wArm 0) (fresh Config.reference)) = true := by decide

/-- ARM-0d. -/
theorem test_wEnqArm_rejected :
    nextWith (fun t => t.w.wOvf && t.w.armQ && t.mem == [(0, 1), (1, 2), (2, 3)] && t.w.wptrBin == 3)
      (exec (.wEnqArm 4) (fullRing Config.reference)) = true := by decide

/-- RV-1 and SC-6: stage 2 takes the pre-edge stage 1. -/
theorem test_rNop_shifts :
    nextWith (fun t => t.r.rq == [0b01, 0b00] && !t.x.wgrayDirty && t.rEmpty)
      (exec (.rNop 0) { oneRecord plainCfg with r.rq := [0b00, 0b00], x.wgrayDirty := true }) = true := by decide

/-- RC-10. -/
theorem test_rNop_report_falls :
    nextWith (fun t => !t.r.rptValid && t.r.rptData == 0x42 && t.r.rptPeriod == 3)
      (exec (.rNop 0)
        { fresh Config.reference with r.rptValid := true, r.rptData := 0x42, r.rptPeriod := 3 }) = true := by decide

/-- RV-2. -/
theorem test_rDeq_accepted :
    nextWith (fun t => t.g.consumed == [0x0A0B0C] && t.r.rptrBin == 1 && t.r.rptrGray == 0b01 && t.x.rgrayDirty && t.rEmpty)
      (exec (.rDeq 0) (oneRecord plainCfg)) = true := by decide

/-- RV-3. -/
theorem test_rDeq_rejected :
    nextWith (fun t => t.r.rUdf && t.r.rptrBin == 0 && !t.x.rgrayDirty && t.g.consumed == [])
      (exec (.rDeq 0) (fresh plainCfg)) = true := by decide

/-- RC-3's shape with RC-6b's widths: the period elapses at the largest sum. -/
theorem test_rcTick_drains :
    nextWith (fun t => t.r.cycle == 0 && t.r.rptValid && t.r.rptKind == .drain && t.r.rptData == 0x0A0B0C &&
        t.r.rptPeriod == 0x1FFFE && t.r.rptrBin == 1)
      (exec (.rcTick 65535)
        { oneRecord Config.reference with r.enable := true, r.consumeEvery := 0xFFFF, r.cycle := 0x1FFFD }) = true := by
  decide

/-- RC-8 and RC-11, the latter with `cycle` 5 (log 19): the clear wins over a standing arm, the reported period is the
new one plus the modifier, and the last data reported is kept. -/
theorem test_rcTick_underruns :
    nextWith (fun t => !t.r.enable && t.r.cycle == 0 && t.r.consumeEvery == 2 && t.r.rptKind == .underrun &&
        t.r.rptPeriod == 7 && t.r.rptData == 0x0C)
      (exec (.rcTick 5)
        { fresh Config.reference with
          w.armQ := true, r.armS := [true, true], r.enable := true, r.cycle := 5, r.rptData := 0x0C }) = true := by decide

/-- RST-1: every register at its reset value; the storage kept, and its contents unspecified (R45). -/
theorem test_resetAssert :
    nextWith (fun t => t.w.wptrBin == 0 && t.w.wRs == [true, true] && t.r.consumeEvery == 1 && t.rstIn &&
        t.g.accepted == [] && t.mem == [(0, 1), (1, 2), (2, 3)] && t.stale == [0, 1, 2])
      (exec .resetAssert { fullRing Config.reference with w.wOvf := true, r.consumeEvery := 2 }) = true := by decide

/-- R45: an accepted enqueue specifies its slot again, and only that one. -/
theorem test_wEnq_respecifies :
    nextWith (fun t => t.slotContent 0 == some 9 && t.slotContent 1 == none && t.mem.read 1 == some 2 && t.stale == [1])
      (exec (.wEnq 9) { fresh plainCfg with mem := [(0, 1), (1, 2)], stale := [0, 1] }) = true := by decide

/-- RST-3. -/
theorem test_resetDeassert :
    nextWith (fun t => !t.rstIn && t.w.wRs == [true, true]) (exec .resetDeassert State.reset) = true := by decide

/-- R82, R72: what the instance cannot be presented with is refused, by name. -/
theorem test_exec_refusals :
    (match exec (.rDeq 0) (fresh Config.reference) with | .refused r => r == .absentPort | _ => false) = true ∧
    (match exec (.wEnq 0x1000000) (fresh plainCfg) with | .refused r => r == .wordTooWide | _ => false) = true := by
  decide

/-! ### Steps -/

/-- A word of the table is the very next step after reset: WV-9's held edge, and R151. -/
theorem test_withFetchWord :
    nextWith (fun t => t.w.wRs == [true, true] && t.env.inputs == [])
      (step (State.reset.withFetchWord 32 0x1ABCDEF)) = true ∧
    nextWith (fun t => t.cfg == plainCfg && t.env.inputs == [])
      (step (State.reset.withFetchWord 24 0x10000)) = true ∧
    nextWith (fun t => !t.rstIn) (step (State.reset.withFetchWord 8 0)) = true := by decide

/-- RV-6: a refused word is no step. -/
theorem test_step_refuses_reserved :
    (match step (State.reset.withFetchWord 24 0x30000) with | .refused r => r == .twoConsumers | _ => false) = true := by
  decide

/-- R154. -/
theorem test_step_partial_reset :
    (match step { State.reset with env.inputs := [.line (.partialReset .write)] } with
      | .fault r => r == .partialReset | _ => false) = true := by decide

/-- R87: `PUSH` waits while full and enqueues once there is room; `RESET` expands to R156's boot order. -/
theorem test_pseudo_push :
    Pseudo.next (fullRing plainCfg) (.push 7) = some (plainLine plainCfg (.wNop 0), [.pseudo (.push 7)]) ∧
    Pseudo.next (fresh plainCfg) (.push 7) = some (.sample .we 0x1000007 Draws.allNew, []) := by decide

/-- Log 21: a record of more than `W` bits is refused, and so is `PUSH_ARM` without the companion, whatever the flag. -/
theorem test_pseudo_refusals :
    (match step { fresh plainCfg with env.inputs := [.pseudo (.push 0x1000000)] } with
      | .refused r => r == .wordTooWide | _ => false) = true ∧
    (match step { fresh Config.reference with env.inputs := [.pseudo (.pushArm 0x1000000)] } with
      | .refused r => r == .wordTooWide | _ => false) = true ∧
    (match step { fresh plainCfg with env.inputs := [.pseudo (.pushArm 7)] } with
      | .refused r => r == .absentPort | _ => false) = true ∧
    (match step { fullRing plainCfg with env.inputs := [.pseudo (.pushArm 7)] } with
      | .refused r => r == .absentPort | _ => false) = true := by decide

theorem test_pseudo_reset :
    Pseudo.next (fresh plainCfg) (.reset []) = some (.sample .sy 1 Draws.allNew,
      [.line (.sample .sy 0 Draws.allNew), .line (.sample .we 0 Draws.allNew), .line (.sample .we 0 Draws.allNew),
        .line (.sample .re 0 Draws.allNew), .line (.sample .re 0 Draws.allNew)]) := by decide

/-! ### Witnesses: for each obligation with hypotheses, values that meet them -/

/-- An environment whose next line is `f` with `w`. -/
def presenting (s : State) (f : Format) (w : Nat) : State :=
  { s with env.inputs := [.line (.sample f w Draws.allNew)] }

theorem witness_DecodeOfEncodeIsIdentity :
    Instr.wellFormed Config.reference (.wEnqArm 0xFFFFFF) = true ∧
    Instr.wellFormed Config.reference (.rcTick 0xFFFF) = true ∧ Instr.wellFormed plainCfg (.rDeq 0) = true := by decide

theorem witness_EncodeOfDecodeIsIdentity : decode Config.reference .we 0x3FFFFFF = .ok (.wEnqArm 0xFFFFFF) := by decide

theorem witness_ReservedAndTiedWordsRefused_reserved :
    (presenting State.reset .re 0x3FFFF).env.inputs = .line (.sample .re 0x3FFFF Draws.allNew) :: [] ∧
    0x3FFFF < 2 ^ Format.width State.reset.cfg .re ∧
    Nat.testBit 0x3FFFF 16 = true ∧ Nat.testBit 0x3FFFF 17 = true := by decide

theorem witness_ReservedAndTiedWordsRefused_tied :
    0x3FFFFFF < 2 ^ Format.width plainCfg .we ∧ plainCfg.hasRc = false ∧ Nat.testBit 0x3FFFFFF 25 = true ∧
    0x00001 < 2 ^ Format.width plainCfg .re ∧ 0x00001 % 2 ^ plainCfg.periodBits ≠ 0 ∧
    0x1FFFF < 2 ^ Format.width Config.reference .re ∧ Config.reference.hasRc = true ∧
    Nat.testBit 0x1FFFF 16 = true ∧ Nat.testBit 0x1FFFF 17 = false := by decide

theorem witness_ReservedAndTiedWordsRefused_accepted :
    0x2FFFF < 2 ^ Format.width Config.reference .re ∧ Nat.testBit 0x2FFFF 16 = false ∧ Config.reference.hasRc = true := by
  decide

theorem witness_StepRunsTheDecodedOperation :
    (presenting State.reset .we 0x3FFFFFF).env.inputs = .line (.sample .we 0x3FFFFFF Draws.allNew) :: [] ∧
    decode State.reset.cfg .we 0x3FFFFFF = .ok (.wEnqArm 0xFFFFFF) := by decide

theorem witness_IgnoredFieldsHaveNoEffect :
    fits State.reset.cfg.dataBits 0xFFFFFF = true ∧ fits State.reset.cfg.dataBits 0 = true ∧
    State.reset.cfg.hasRc = true ∧ fits State.reset.cfg.periodBits 0xFFFF = true := by decide

theorem witness_GrayAndBinAreInverse : 1 ≤ 1 ∧ 1 < 2 ^ 1 ∧ 0 + 1 < 2 ∧ 2 < 2 ^ 2 := by decide

theorem witness_GrayChangesOneBitCyclically : 1 ≤ 1 ∧ 1 < 2 ^ 1 ∧ 1 ≤ 3 ∧ 7 < 2 ^ 3 := by decide

theorem fullRing_wf : (fullRing Config.reference).Wf := by constructor <;> decide
theorem oneRecord_wf : (oneRecord Config.reference).Wf := by constructor <;> decide
theorem oneRecord_plain_wf : (oneRecord plainCfg).Wf := by constructor <;> decide
theorem reset_wf : State.reset.Wf := by constructor <;> decide

theorem witness_FullFlagMeaning :
    (State.reset.Wf ∧ State.reset.wHeld = true) ∧
    ((fullRing Config.reference).Wf ∧ (fullRing Config.reference).wHeld = false ∧ (fullRing Config.reference).wFull = true) ∧
    (oneRecord Config.reference).Wf ∧ (oneRecord Config.reference).wFull = false :=
  ⟨⟨reset_wf, by decide⟩, ⟨fullRing_wf, by decide, by decide⟩, oneRecord_wf, by decide⟩

theorem witness_EmptyFlagMeaning :
    (State.reset.Wf ∧ State.reset.r.rptrGray = gray State.reset.r.rptrBin ∧ State.reset.rHeld = true) ∧
    ((fullRing Config.reference).Wf ∧ (fullRing Config.reference).rHeld = false ∧ (fullRing Config.reference).rEmpty = true) ∧
    (oneRecord Config.reference).Wf ∧ (oneRecord Config.reference).r.rptrGray = gray (oneRecord Config.reference).r.rptrBin ∧
    (oneRecord Config.reference).rEmpty = false :=
  ⟨⟨reset_wf, by decide⟩, ⟨fullRing_wf, by decide, by decide⟩, oneRecord_wf, by decide⟩

theorem witness_FullAndEmptyExcludePerView : (fullRing Config.reference).Wf := fullRing_wf

theorem fullRing_ring : RingInv (fullRing Config.reference) [0, 0] [0, 0] := by
  constructor
  case stored =>
    intro i _ h
    have h : i < 3 := h
    interval_cases i <;> decide
  all_goals decide

theorem oneRecord_ring (c : Config) (h : c = Config.reference ∨ c = plainCfg) : RingInv (oneRecord c) [0, 0] [1, 1] := by
  rcases h with rfl | rfl <;>
  · constructor
    case stored =>
      intro i _ h
      have h : i < 1 := h
      interval_cases i; decide
    all_goals decide

theorem witness_CapacityIsSlotsMinusOne :
    (Config.wf Config.reference = true ∧ (∀ d ∈ [1, 2, 0xFFFFFF], d < 2 ^ Config.reference.dataBits) ∧
      [1, 2, 0xFFFFFF].length = Config.reference.slots - 1) ∧
    (Config.wf { Config.reference with addrBits := 1 } = true ∧
      [7].length = Config.slots { Config.reference with addrBits := 1 } - 1) ∧
    (fullRing Config.reference).RingOk ∧
    (∃ t, NoReset [.wNop 0, .rcTick 0, .wEnqArm 1, .wEnq 2] ∧
      Run (State.released Config.reference) [.wNop 0, .rcTick 0, .wEnqArm 1, .wEnq 2] t ∧ t.g.deqCount = 0 ∧
      t.g.enqCount + 1 = Config.reference.slots - 1) ∧
    (∃ t, NoReset [.wEnq 1, .wEnq 2, .wEnqArm 3] ∧
      Run (State.released Config.reference) [.wEnq 1, .wEnq 2, .wEnqArm 3] t ∧ t.g.deqCount = 0 ∧
      t.g.enqCount = Config.reference.slots - 1) ∧
    requestsEnqueue (.wEnqArm 0xFFFFFF) = true ∧ Instr.wellFormed Config.reference (.wEnqArm 0xFFFFFF) = true :=
  ⟨by decide, by decide, ⟨_, _, fullRing_ring⟩,
    ⟨_, by simp [NoReset], .more quiet (exec_of_wellFormed (by decide)) (.more quiet (exec_of_wellFormed (by decide))
      (.more quiet (exec_of_wellFormed (by decide)) (.more quiet (exec_of_wellFormed (by decide)) (.done _)))),
      by decide, by decide⟩,
    ⟨_, by simp [NoReset], .more quiet (exec_of_wellFormed (by decide)) (.more quiet (exec_of_wellFormed (by decide))
      (.more quiet (exec_of_wellFormed (by decide)) (.done _))), by decide, by decide⟩, by decide, by decide⟩

theorem witness_ChainShiftsOneStage :
    ([0b01, 0b00] ≠ [] ∧ 0 + 1 < [0b01, 0b00].length) ∧ [true, false] ≠ [] ∧ 0 + 1 < [true, false].length := by decide

theorem witness_WriteEdgeWithoutEnqueue :
    0xFFFFFF < 2 ^ (fullRing Config.reference).cfg.dataBits ∧ (fullRing Config.reference).wHeld = false ∧
    (fullRing Config.reference).cfg.hasRc = true := by decide

theorem witness_AcceptedEnqueueStoresAndPublishes :
    0xFFFFFF < 2 ^ (oneRecord Config.reference).cfg.dataBits ∧ (oneRecord Config.reference).wFull = false ∧
    (oneRecord Config.reference).cfg.hasRc = true := by decide

theorem witness_RejectedEnqueueOverflows :
    0xFFFFFF < 2 ^ (fullRing Config.reference).cfg.dataBits ∧ (fullRing Config.reference).wHeld = false ∧
    (fullRing Config.reference).wFull = true ∧ (fullRing Config.reference).cfg.hasRc = true := by decide

theorem witness_HeldEdgeOnlyShiftsReset :
    (Instr.wellFormed State.reset.cfg (.wEnqArm 0xFFFFFF) = true ∧ Instr.format (.wEnqArm 0xFFFFFF) = .we ∧
      State.reset.wHeld = true) ∧
    Instr.wellFormed State.reset.cfg (.rcTick 0xFFFF) = true ∧ Instr.format (.rcTick 0xFFFF) = .re ∧
    State.reset.rHeld = true := by decide

theorem witness_ReadEdgeWithoutOperation :
    Instr.wellFormed (oneRecord Config.reference).cfg (.rNop 0xFFFF) = true ∧
    (oneRecord Config.reference).rHeld = false := by decide

theorem witness_AcceptedDequeueConsumes :
    (oneRecord plainCfg).cfg.hasRc = false ∧ (oneRecord plainCfg).rEmpty = false ∧
    (oneRecord plainCfg).slotContent (oneRecord plainCfg).r.rptrBin = some 0x0A0B0C := by decide

theorem witness_RejectedDequeueUnderflows :
    (fresh plainCfg).cfg.hasRc = false ∧ (fresh plainCfg).rHeld = false ∧ (fresh plainCfg).rEmpty = true := by decide

/-- A record visible, the companion enabled, period 1. -/
def enabled : State := { oneRecord Config.reference with r.enable := true }

/-- Nothing visible, the companion enabled. -/
def starving : State := { fresh Config.reference with r.enable := true }

theorem witness_TickThatIsNotDueOnlyCounts :
    ((oneRecord Config.reference).cfg.hasRc = true ∧ 0xFFFF < 2 ^ (oneRecord Config.reference).cfg.periodBits ∧
      (oneRecord Config.reference).rHeld = false ∧ (oneRecord Config.reference).r.enable = false) ∧
    enabled.cfg.hasRc = true ∧ 1 < 2 ^ enabled.cfg.periodBits ∧ enabled.rHeld = false ∧ enabled.r.enable = true ∧
    enabled.r.consumeEvery < 2 ^ enabled.cfg.periodBits ∧ enabled.r.cycle + 1 < enabled.r.consumeEvery + 1 := by decide

theorem witness_DueTickDrains :
    enabled.cfg.hasRc = true ∧ 0 < 2 ^ enabled.cfg.periodBits ∧ enabled.rEmpty = false ∧ enabled.r.enable = true ∧
    enabled.r.cycle + 1 < 2 ^ (enabled.cfg.periodBits + 1) ∧ enabled.r.consumeEvery + 0 ≤ enabled.r.cycle + 1 := by decide

theorem witness_DueTickUnderruns :
    starving.cfg.hasRc = true ∧ 0 < 2 ^ starving.cfg.periodBits ∧ starving.rHeld = false ∧ starving.rEmpty = true ∧
    starving.r.enable = true ∧ starving.r.cycle + 1 < 2 ^ (starving.cfg.periodBits + 1) ∧
    starving.r.consumeEvery + 0 ≤ starving.r.cycle + 1 := by decide

theorem witness_EnableFollowsArmUnlessUnderrun :
    starving.cfg.hasRc = true ∧ Instr.format (.rcTick 0) = .re ∧ starving.rHeld = false ∧
    takesUnderrun (.rcTick 0) starving = true ∧ takesUnderrun (.rcTick 1) starving = false ∧
    ∃ t, exec (.rcTick 0) starving = .next t :=
  ⟨by decide, by decide, by decide, by decide, by decide, _, exec_of_wellFormed (by decide)⟩

theorem witness_ReportIsValidForOneEdge :
    dueTick (.rcTick 0) enabled = true ∧ dueTick (.rcTick 1) enabled = false ∧
    takesUnderrun (.rcTick 0) starving = true ∧ enabled.rHeld = false ∧
    (∃ t, exec (.rcTick 0) enabled = .next t) ∧ (∃ t, exec (.rcTick 1) enabled = .next t) ∧
    ∃ t, exec (.rcTick 0) starving = .next t :=
  ⟨by decide, by decide, by decide, by decide, ⟨_, exec_of_wellFormed (by decide)⟩,
    ⟨_, exec_of_wellFormed (by decide)⟩, _, exec_of_wellFormed (by decide)⟩

theorem witness_EveryEdgeRunsItsSynchroniser :
    (fullRing Config.reference).wHeld = false ∧ (fullRing Config.reference).rHeld = false ∧
    (fullRing Config.reference).cfg.hasRc = true ∧
    (∃ t, exec (.wEnq 4) (fullRing Config.reference) = .next t) ∧
    ∃ t, exec (.rcTick 0) (fullRing Config.reference) = .next t :=
  ⟨by decide, by decide, by decide, ⟨_, exec_of_wellFormed (by decide)⟩, _, exec_of_wellFormed (by decide)⟩

theorem witness_CaptureAdmitsExactlyTheDraws :
    (fullRing Config.reference).Wf ∧ (fullRing Config.reference).rHeld = false ∧
    (fullRing Config.reference).wHeld = false ∧ (fullRing Config.reference).cfg.hasRc = true ∧
    (fullRing Config.reference).x.wgrayDirty = true ∧ (∃ t, exec (.rNop 0) (fullRing Config.reference) = .next t) ∧
    ∃ t, exec (.wNop 0) (fullRing Config.reference) = .next t :=
  ⟨fullRing_wf, by decide, by decide, by decide, by decide, ⟨_, exec_of_wellFormed (by decide)⟩, _,
    exec_of_wellFormed (by decide)⟩

/-- RST-4 after its first edge: the write domain has one held edge left, the read domain two. -/
def releasing : State := { State.reset with rstIn := false, w.wRs := [false, true] }

theorem reset_hold : HoldInv State.reset :=
  ⟨by decide, ⟨0, by decide, by decide⟩, ⟨0, by decide, by decide⟩, by decide, by decide, by decide⟩

theorem releasing_hold : HoldInv releasing :=
  ⟨by decide, ⟨1, by decide, by decide⟩, ⟨0, by decide, by decide⟩, by decide, by decide, by decide⟩

theorem witness_HeldOutputsAndRelease :
    HoldInv releasing ∧ releasing.wHeld = true ∧ releasing.rHeld = true ∧
    Instr.wellFormed releasing.cfg (.wEnqArm 0xFFFFFF) = true ∧ Instr.wellFormed releasing.cfg (.rcTick 0xFFFF) = true ∧
    Config.wf { Config.reference with addrBits := 1, rstStages := 1 } = true :=
  ⟨releasing_hold, by decide⟩

theorem witness_ReleaseAfterExactlySrEdges :
    ∃ s t, s.cfg.wf = true ∧ s.rstIn = false ∧ s.w.wRs = List.replicate s.cfg.rstStages true ∧
      s.r.rRs = List.replicate s.cfg.rstStages true ∧ Run s [.wNop 0, .rNop 0, .wEnq 1] t ∧
      wEdges [.wNop 0, .rNop 0, .wEnq 1] = s.cfg.rstStages ∧ rEdges [.wNop 0, .rNop 0, .wEnq 1] < s.cfg.rstStages ∧
      NoReset [.wNop 0, .rNop 0, .wEnq 1] :=
  ⟨{ State.reset with rstIn := false }, _, by decide, by decide, by decide, by decide,
    .more State.reset.env (exec_of_wellFormed (by decide)) (.more State.reset.env (exec_of_wellFormed (by decide))
      (.more State.reset.env (exec_of_wellFormed (by decide)) (.done _))), by decide, by decide, by simp [NoReset]⟩

theorem witness_ResetDeassertOnlyLowersRst : (fresh plainCfg).rstIn = false := by decide

theorem witness_PartialResetFaultsForGood :
    ({ State.reset with env.inputs := [.line (.partialReset .write)] } : State).env.inputs =
      .line (.partialReset .write) :: [] := by decide

theorem witness_EachDomainWritesOnlyItsOwn :
    (∃ t, exec (.wEnqArm 1) (oneRecord Config.reference) = .next t) ∧ (∃ t, exec (.rcTick 0) enabled = .next t) ∧
    ∃ t, exec .resetDeassert State.reset = .next t :=
  ⟨⟨_, exec_of_wellFormed (by decide)⟩, ⟨_, exec_of_wellFormed (by decide)⟩, _, exec_of_wellFormed (by decide)⟩

theorem witness_OnlyAnAcceptedEnqueueStores :
    (acceptsEnqueue (.wEnqArm 9) (oneRecord Config.reference) = true ∧
      ∃ t, exec (.wEnqArm 9) (oneRecord Config.reference) = .next t) ∧
    acceptsEnqueue (.wEnq 9) (fullRing Config.reference) = false ∧
    ∃ t, exec (.wEnq 9) (fullRing Config.reference) = .next t :=
  ⟨⟨by decide, _, exec_of_wellFormed (by decide)⟩, by decide, _, exec_of_wellFormed (by decide)⟩

theorem witness_StickyFlagsRecordMisuse :
    (raisesOverflow (.wEnq 9) (fullRing Config.reference) = true ∧
      ∃ t, exec (.wEnq 9) (fullRing Config.reference) = .next t) ∧
    (raisesUnderflow (.rDeq 0) (fresh plainCfg) = true ∧ ∃ t, exec (.rDeq 0) (fresh plainCfg) = .next t) ∧
    ∃ t, exec .resetAssert (fullRing Config.reference) = .next t :=
  ⟨⟨by decide, _, exec_of_wellFormed (by decide)⟩, ⟨by decide, _, exec_of_wellFormed (by decide)⟩, _,
    exec_of_wellFormed (by decide)⟩

theorem witness_PointersMoveOneSlotPerAcceptance :
    (oneRecord plainCfg).Wf ∧ (oneRecord plainCfg).w.wptrGray = gray (oneRecord plainCfg).w.wptrBin ∧
    (oneRecord plainCfg).r.rptrGray = gray (oneRecord plainCfg).r.rptrBin ∧
    (acceptsEnqueue (.wEnq 9) (oneRecord plainCfg) = true ∧ ∃ t, exec (.wEnq 9) (oneRecord plainCfg) = .next t) ∧
    acceptsDequeue (.rDeq 0) (oneRecord plainCfg) = true ∧ ∃ t, exec (.rDeq 0) (oneRecord plainCfg) = .next t :=
  ⟨oneRecord_plain_wf, by decide, by decide, ⟨by decide, _, exec_of_wellFormed (by decide)⟩, by decide, _,
    exec_of_wellFormed (by decide)⟩

/-- A state whose next step enqueues. -/
def enqueuing (s : State) : State := presenting s .we 0x1000009

theorem enqueuing_step (s : State) (h : s.cfg = Config.reference) : ∃ t, step (enqueuing s) = .next t := by
  have hd : decode s.cfg .we 0x1000009 = .ok (.wEnq 9) := by rw [h]; decide
  refine ⟨after (.wEnq 9) (enqueuing s).loaded, ?_⟩
  show (match decode s.cfg .we 0x1000009 with
    | .ok i => exec i (enqueuing s).loaded
    | .error e => .refused (refusalOf e)) = _
  rw [hd]
  refine exec_of_wellFormed ?_
  show Instr.wellFormed s.cfg _ = true
  rw [h]; decide

theorem witness_ParametersNeverChange : ∃ t, step (enqueuing State.reset) = .next t := enqueuing_step _ rfl

theorem witness_ConsumeEveryNeverDecreases :
    ∃ t u, (starving.r.consumeEvery < 2 ^ starving.cfg.periodBits ∧ takesUnderrun (.rcTick 0) starving = true ∧
        exec (.rcTick 0) starving = .next t) ∧
      NoReset [.rcTick 0, .wNop 0] ∧ Run starving [.rcTick 0, .wNop 0] u :=
  ⟨_, _, ⟨by decide, by decide, exec_of_wellFormed (by decide)⟩, by simp [NoReset],
    .more starving.env (exec_of_wellFormed (by decide)) (.more starving.env (exec_of_wellFormed (by decide)) (.done _))⟩

theorem enabled_wf : enabled.Wf := by constructor <;> decide

/-- Both clauses at their boundary, period 2: one tick waits, and a second, after an idle edge, drains. -/
theorem witness_DrainComesAtTheEffectivePeriod :
    enabled.Wf ∧ enabled.cfg.hasRc = true ∧ 1 < 2 ^ enabled.cfg.periodBits ∧ enabled.r.enable = true ∧
    enabled.r.cycle = 0 ∧ 1 < enabled.r.consumeEvery + 1 ∧ (∃ t, TickRun 1 enabled 1 t) ∧
    2 = enabled.r.consumeEvery + 1 ∧ ∃ t, TickRun 1 enabled 2 t :=
  ⟨enabled_wf, by decide, by decide, by decide, by decide, by decide,
    ⟨_, .tick enabled.env (.start _) (by decide) (exec_of_wellFormed (by decide))⟩, by decide, _,
    .tick enabled.env
      (.other (.rNop 0) enabled.env (.tick enabled.env (.start _) (by decide) (exec_of_wellFormed (by decide)))
        (.inr ⟨0, rfl⟩) (exec_of_wellFormed (by decide)))
      (by decide) (exec_of_wellFormed (by decide))⟩

theorem witness_UnderrunDisarmsAndSlowsDown :
    (starving.cfg.hasRc = true ∧ 0 < 2 ^ starving.cfg.periodBits ∧ takesUnderrun (.rcTick 0) starving = true) ∧
    ∃ u v, u.cfg.hasRc = true ∧ u.rHeld = false ∧ u.armView = true ∧ takesUnderrun (.rNop 0) u = false ∧
      exec (.rNop 0) u = .next v :=
  ⟨by decide, { fresh Config.reference with r.armS := [false, true] }, _, by decide, by decide, by decide, by decide,
    exec_of_wellFormed (by decide)⟩

theorem enqueuing_wf : (enqueuing (oneRecord Config.reference)).Wf := by constructor <;> decide

theorem witness_WellFormedStateIsKept :
    (enqueuing (oneRecord Config.reference)).Wf ∧ ∃ t, step (enqueuing (oneRecord Config.reference)) = .next t :=
  ⟨enqueuing_wf, enqueuing_step _ rfl⟩

theorem witness_HeldDomainKeepsResetValues :
    HoldInv (enqueuing releasing) ∧ ∃ t, step (enqueuing releasing) = .next t :=
  ⟨⟨by decide, ⟨1, by decide, by decide⟩, ⟨0, by decide, by decide⟩, by decide, by decide, by decide⟩,
    enqueuing_step _ rfl⟩

theorem witness_LaunchStateMeetsInvariants :
    Config.wf Config.reference = true ∧ Config.wf plainCfg = true ∧
    Config.wf { addrBits := 1, dataBits := 1, syncStages := 2, rstStages := 1, hasRc := false, periodBits := 1,
                delayBound := 1 } = true := by decide

theorem witness_RingInvariantIsKept :
    (enqueuing (fullRing Config.reference)).RingOk ∧ ∃ t, step (enqueuing (fullRing Config.reference)) = .next t := by
  refine ⟨⟨[0, 0], [0, 0], ?_⟩, enqueuing_step _ rfl⟩
  have h := fullRing_ring
  constructor <;> first
    | exact h.cfg | exact h.wptrBin | exact h.rptrBin | exact h.wptrGray | exact h.rptrGray | exact h.wqLength
    | exact h.rqLength | exact h.wq | exact h.rq | exact h.wqOrder | exact h.rqOrder | exact h.seen | exact h.room
    | exact h.accepted | exact h.consumed | exact h.stored | exact h.wgrayDirty | exact h.rgrayDirty

theorem witness_ViewsNeverMoveBackwards :
    RingInv (fullRing Config.reference) [0, 0] [0, 0] ∧ ∃ t, exec (.rNop 0) (fullRing Config.reference) = .next t :=
  ⟨fullRing_ring, _, exec_of_wellFormed (by decide)⟩

theorem witness_FlagsErrOnlyOnTheSafeSide :
    (RingInv (fullRing Config.reference) [0, 0] [0, 0] ∧ (fullRing Config.reference).wHeld = false ∧
      (fullRing Config.reference).wFull = true ∧ (fullRing Config.reference).rEmpty = true) ∧
    RingInv (oneRecord plainCfg) [0, 0] [1, 1] ∧ (oneRecord plainCfg).wFull = false ∧ (oneRecord plainCfg).rEmpty = false :=
  ⟨⟨fullRing_ring, by decide⟩, oneRecord_ring _ (.inr rfl), by decide⟩

theorem witness_ReadDataIsTheOldestRecord :
    (oneRecord plainCfg).RingOk ∧ (oneRecord plainCfg).rEmpty = false ∧ 0 < (oneRecord plainCfg).rLevel :=
  ⟨⟨_, _, oneRecord_ring _ (.inr rfl)⟩, by decide⟩

theorem witness_ConsumedIsPrefixOfAccepted :
    (Config.wf Config.reference = true ∧ ∃ t, Run (State.launch Config.reference) [.resetDeassert, .wEnq 1] t) ∧
    (oneRecord plainCfg).RingOk ∧ ∃ t, Run (oneRecord plainCfg) [.rDeq 0, .rDeq 0] t :=
  ⟨⟨by decide, _, .more State.reset.env (exec_of_wellFormed (by decide))
      (.more State.reset.env (exec_of_wellFormed (by decide)) (.done _))⟩,
    ⟨_, _, oneRecord_ring _ (.inr rfl)⟩, _,
    .more quiet (exec_of_wellFormed (by decide))
      (.more quiet (exec_of_wellFormed (by decide)) (.done _))⟩

/-- Three idle R-edges. -/
def threeReads : List Instr := [.rNop 0, .rNop 0, .rNop 0]

theorem threeReads_noReset : NoReset threeReads := by simp [NoReset, threeReads]

theorem fullRing_readReleased : (fullRing Config.reference).ReadReleased ∧ (fullRing Config.reference).WriteReleased := by
  constructor <;> constructor <;> decide

theorem witness_ViewsConvergeToTheirSource :
    (fullRing Config.reference).Wf ∧ NoReset threeReads ∧ (fullRing Config.reference).ReadReleased ∧
    (fullRing Config.reference).WriteReleased ∧
    (∃ t, Run (fullRing Config.reference) threeReads t ∧ t.g.enqCount = (fullRing Config.reference).g.enqCount) ∧
    (fullRing Config.reference).cfg.syncStages + (if (fullRing Config.reference).x.wgrayDirty = true then 1 else 0) =
      rEdges threeReads ∧
    ∃ t, Run (fullRing Config.reference) [.wNop 0, .wEnq 4] t ∧
      t.g.deqCount = (fullRing Config.reference).g.deqCount ∧
      (fullRing Config.reference).cfg.syncStages = wEdges [.wNop 0, .wEnq 4] :=
  ⟨fullRing_wf, threeReads_noReset, fullRing_readReleased.1, fullRing_readReleased.2,
    ⟨_, .more quiet (exec_of_wellFormed (by decide))
      (.more quiet (exec_of_wellFormed (by decide))
        (.more quiet (exec_of_wellFormed (by decide)) (.done _))), by decide⟩, by decide, _,
    .more quiet (exec_of_wellFormed (by decide))
      (.more quiet (exec_of_wellFormed (by decide)) (.done _)), by decide, by decide⟩

theorem witness_EnqueueIsVisibleInTime :
    RingInv (fullRing Config.reference) [0, 0] [0, 0] ∧ (fullRing Config.reference).ReadReleased ∧
    (∃ t, NoReset threeReads ∧ Run (fullRing Config.reference) threeReads t ∧
      (fullRing Config.reference).cfg.syncStages + 1 = rEdges threeReads ∧
      (fullRing Config.reference).g.enqCount ≤ t.cntRq ∧ t.g.deqCount < (fullRing Config.reference).g.enqCount) ∧
    (∀ tag ∈ [0, 0], tag < (fullRing Config.reference).g.enqCount) ∧ rEdges [.rNop 0] + 1 = 2 ∧
    ∃ t, Run (fullRing Config.reference) [.rNop 0] t :=
  ⟨fullRing_ring, fullRing_readReleased.1,
    ⟨_, threeReads_noReset, .more quiet (exec_of_wellFormed (by decide))
      (.more quiet (exec_of_wellFormed (by decide))
        (.more quiet (exec_of_wellFormed (by decide)) (.done _))), by decide, by decide, by decide⟩,
    by decide, by decide, _, .more quiet (exec_of_wellFormed (by decide)) (.done _)⟩

/-- One record accepted, seen and consumed, and its slot not seen free yet. -/
def released1 : State :=
  { oneRecord plainCfg with
    r.rptrBin := 1, r.rptrGray := 0b01, x.rgrayDirty := true, g.deqCount := 1, g.consumed := [0x0A0B0C] }

theorem released1_ring : RingInv released1 [0, 0] [1, 1] := by
  constructor
  case stored =>
    intro i h1 h2
    have h1 : 1 ≤ i := h1
    have h2 : i < 1 := h2
    omega
  all_goals decide

theorem witness_DequeueIsReleasedInTime :
    RingInv released1 [0, 0] [1, 1] ∧ released1.WriteReleased ∧
    (∃ t, Run released1 [.wNop 0, .wNop 0, .wNop 0] t ∧
      released1.cfg.syncStages + 1 = wEdges [.wNop 0, .wNop 0, .wNop 0] ∧ released1.g.deqCount ≤ t.cntWq ∧
      t.g.enqCount < released1.g.deqCount + released1.cfg.capacity) ∧
    (∀ tag ∈ [0, 0], tag < released1.g.deqCount) ∧ wEdges [.wNop 0] + 1 = released1.cfg.syncStages ∧
    ∃ t, Run released1 [.wNop 0] t :=
  ⟨released1_ring, by constructor <;> decide,
    ⟨_, .more quiet (exec_of_wellFormed (by decide))
      (.more quiet (exec_of_wellFormed (by decide))
        (.more quiet (exec_of_wellFormed (by decide)) (.done _))), by decide, by decide, by decide⟩,
    by decide, by decide, _, .more quiet (exec_of_wellFormed (by decide)) (.done _)⟩

theorem fresh_ring : RingInv (fresh Config.reference) [0, 0] [0, 0] := by
  constructor
  case stored => intro i _ h; exact absurd h (Nat.not_lt_zero i)
  all_goals decide

/-- Program ARM-1's shape: an arm with its record, and three edges that carry it to `enable`. -/
theorem witness_ArmNeverOvertakesTheData :
    (fresh Config.reference).RingOk ∧ (fresh Config.reference).r.enable = false ∧
    (∀ b ∈ (fresh Config.reference).r.armS, b = false) ∧ (fresh Config.reference).x.armDirty = false ∧
    (fresh Config.reference).w.armQ = false ∧
    (fresh Config.reference).r.armS.length = (fresh Config.reference).cfg.syncStages ∧
    ∃ s₁ t, exec (.wEnqArm 5) { fresh Config.reference with env := quiet } = .next s₁ ∧
      s₁.w.armQ = true ∧ NoReset threeReads ∧ Run s₁ threeReads t ∧ t.r.enable = true :=
  ⟨⟨_, _, fresh_ring⟩, by decide, by decide, by decide, by decide, by decide, _, _, exec_of_wellFormed (by decide),
    by decide, threeReads_noReset,
    .more quiet (exec_of_wellFormed (by decide))
      (.more quiet (exec_of_wellFormed (by decide))
        (.more quiet (exec_of_wellFormed (by decide)) (.done _))), by decide⟩

/-- The arm just raised: nothing of it captured yet. -/
def armed : State := { fresh Config.reference with w.armQ := true, x.armDirty := true }

theorem armed_wf : armed.Wf := by constructor <;> decide

theorem witness_ArmReachesEnableInTime :
    armed.Wf ∧ armed.cfg.hasRc = true ∧ armed.ReadReleased ∧ armed.w.armQ = true ∧ NoReset threeReads ∧
    (∀ i ∈ threeReads, i.format = .we → ∃ d, i = .wArm d ∨ i = .wEnqArm d) ∧
    (∃ t, Run armed threeReads t ∧ armed.cfg.syncStages + 1 = rEdges threeReads ∧
      takesUnderrun (.rcTick 0) { t with env := quiet } = true ∧
      takesUnderrun (.rNop 0) { t with env := quiet } = false) ∧
    (∀ b ∈ armed.r.armS, b = false) ∧ armed.r.enable = false ∧ rEdges [.rNop 0, .rNop 0] = armed.cfg.syncStages ∧
    ∃ t, Run armed [.rNop 0, .rNop 0] t :=
  ⟨armed_wf, by decide, by constructor <;> decide, by decide, threeReads_noReset, by simp [threeReads, Instr.format],
    ⟨_, .more quiet (exec_of_wellFormed (by decide))
      (.more quiet (exec_of_wellFormed (by decide))
        (.more quiet (exec_of_wellFormed (by decide)) (.done _))), by decide, by decide, by decide⟩,
    by decide, by decide, by decide, _,
    .more quiet (exec_of_wellFormed (by decide))
      (.more quiet (exec_of_wellFormed (by decide)) (.done _))⟩

/-- The states of an endless run from `s` of the operations `op`. -/
def unroll (s : State) (op : Nat → Instr) : Nat → State
  | 0 => s
  | n + 1 => after (op n) { unroll s op n with env := quiet }

theorem unroll_step {s : State} {op : Nat → Instr} (h : ∀ n, (op n).wellFormed s.cfg = true) (n : Nat) :
    (unroll s op n).cfg = s.cfg ∧ exec (op n) { unroll s op n with env := quiet } = .next (unroll s op (n + 1)) := by
  induction n with
  | zero => exact ⟨rfl, exec_of_wellFormed (h 0)⟩
  | succ n ih =>
    have hc : (unroll s op (n + 1)).cfg = s.cfg := (exec_cfg ih.2).trans ih.1
    exact ⟨hc, exec_of_wellFormed (hc ▸ h (n + 1))⟩

/-- A deassertion, then W-edges and R-edges in turn for ever. -/
def alternating (w r : Instr) : Nat → Instr
  | 0 => .resetDeassert
  | n + 1 => if n % 2 = 0 then w else r

theorem alternating_cases (w r : Instr) {n : Nat} (h : 1 ≤ n) : alternating w r n = w ∨ alternating w r n = r := by
  obtain ⟨n, rfl⟩ : ∃ m, n = m + 1 := ⟨n - 1, by omega⟩
  simp only [alternating]
  split <;> simp

theorem alternating_we {w r : Instr} (hr : r.format = .re) {n : Nat} (h : 1 ≤ n)
    (hf : (alternating w r n).format = .we) : alternating w r n = w := by
  rcases alternating_cases w r h with e | e
  · exact e
  · rw [e, hr] at hf; cases hf

theorem alternating_re {w r : Instr} (hw : w.format = .we) {n : Nat} (h : 1 ≤ n)
    (hf : (alternating w r n).format = .re) : alternating w r n = r := by
  rcases alternating_cases w r h with e | e
  · rw [e, hw] at hf; cases hf
  · exact e

theorem alternating_noReset {w r : Instr} (hw : w.format = .we) (hr : r.format = .re) :
    NoResetFrom (alternating w r) 1 := by
  intro n hn h
  rcases alternating_cases w r hn with e | e <;> rw [h] at e <;> subst e <;> contradiction

theorem alternating_infinitely (w r : Instr) :
    (Infinitely fun n => alternating w r n = w) ∧ Infinitely fun n => alternating w r n = r := by
  refine ⟨fun n => ⟨2 * n + 1, by omega, ?_⟩, fun n => ⟨2 * n + 2, by omega, ?_⟩⟩
  · simp [alternating]
  · simp [alternating, Nat.add_mod]

theorem alternating_fair {c : Config} {w r : Instr} (hc : c.wf = true) (hw : w.format = .we) (hr : r.format = .re)
    (hww : w.wellFormed c = true) (hrw : r.wellFormed c = true) :
    FairRun c (unroll (State.launch c) (alternating w r)) (alternating w r) := by
  have hwf : ∀ n, (alternating w r n).wellFormed (State.launch c).cfg = true := by
    intro n
    cases n with
    | zero => rfl
    | succ n => rcases alternating_cases w r (Nat.succ_pos n) with e | e <;> rw [e] <;> assumption
  exact ⟨hc, rfl, fun n => ⟨quiet, (unroll_step hwf n).2⟩,
    fun n => let ⟨m, hm, e⟩ := (alternating_infinitely w r).1 n; ⟨m, hm, (congrArg Instr.format e).trans hw⟩,
    fun n => let ⟨m, hm, e⟩ := (alternating_infinitely w r).2 n; ⟨m, hm, (congrArg Instr.format e).trans hr⟩,
    1, alternating_noReset hw hr⟩

/-- Every clause's hypotheses at once, from the first step after the deassertion. -/
theorem witness_FairRunsDeliverAndRelease :
    ∃ σ op, FairRun plainCfg σ op ∧ NoResetFrom op 1 ∧ ReaderDequeuesFrom σ op 1 ∧ (∃ m, 1 ≤ m ∧ (σ m).rstIn = false) ∧
      ∀ m, 1 ≤ m → (op m).format = .we → (σ m).wFull = false → requestsEnqueue (op m) = true :=
  ⟨unroll (State.launch plainCfg) (alternating (.wEnq 1) (.rDeq 0)), alternating (.wEnq 1) (.rDeq 0),
    alternating_fair (by decide) rfl rfl (by decide) (by decide), alternating_noReset rfl rfl,
    fun _ hm hf _ => alternating_re rfl hm hf, ⟨1, Nat.le_refl 1, by decide⟩,
    fun _ hm hf _ => by rw [alternating_we rfl hm hf]; rfl⟩

/-- Every clause's hypotheses: an arm held from step 6, the companion enabled at step 12, a producer from step 1. -/
theorem witness_FairTicksMakeProgress :
    ∃ σ op, Config.reference.hasRc = true ∧ FairRun Config.reference σ op ∧ NoResetFrom op 1 ∧ NoResetFrom op 6 ∧
      NoResetFrom op 12 ∧
      ((σ 6).w.armQ = true ∧ ∀ m, 6 ≤ m → (op m).format = .we → armLevel (op m) = true) ∧
      ((σ 12).r.enable = true ∧ (Infinitely fun m => isTick (op m) = true) ∧
        ∀ m k, 12 ≤ m → op m = .rcTick k → k ≤ 1) ∧
      (∃ m, 1 ≤ m ∧ (σ m).rstIn = false) ∧
      ∀ m, 1 ≤ m → (op m).format = .we →
        if (σ m).wFull = true then armLevel (op m) = true else requestsEnqueue (op m) = true :=
  have late : ∀ n, 1 ≤ n → NoResetFrom (alternating (.wEnqArm 1) (.rcTick 1)) n :=
    fun _ hn m hm => alternating_noReset rfl rfl m (hn.trans hm)
  ⟨unroll (State.launch Config.reference) (alternating (.wEnqArm 1) (.rcTick 1)), alternating (.wEnqArm 1) (.rcTick 1),
    rfl, alternating_fair (by decide) rfl rfl (by decide) (by decide), late 1 (by decide), late 6 (by decide),
    late 12 (by decide),
    ⟨by decide, fun m hm hf => by rw [alternating_we rfl (by omega) hf]; rfl⟩,
    ⟨by decide,
      fun n => let ⟨m, hm, e⟩ := (alternating_infinitely (.wEnqArm 1) (.rcTick 1)).2 n; ⟨m, hm, congrArg isTick e⟩,
      fun m k hm e => by
        rcases alternating_cases (.wEnqArm 1) (.rcTick 1) (show 1 ≤ m by omega) with h | h <;> rw [e] at h <;> cases h
        exact Nat.le_refl 1⟩,
    ⟨1, Nat.le_refl 1, by decide⟩,
    fun m hm hf => by rw [alternating_we rfl hm hf]; split <;> rfl⟩

/-- The reference producer's next edge. -/
def producing (s : State) : State := { s with env.inputs := [.producerEdge 7 Draws.allNew] }

theorem witness_ReferenceProducerNeverOverflows :
    (nextWith (fun t => t.g.accepted == [0] && t.env.producer == ⟨1, 0⟩)
      (step (producing (fresh Config.reference))) = true) ∧
    (nextWith (fun t => t.w.armQ && !t.w.wOvf) (step (producing (fullRing Config.reference))) = true) ∧
    ((producing (fresh plainCfg)).env.producer.delay = 0 ∧ (producing (fresh plainCfg)).cfg.hasRc = false) ∧
    ((producing (fullRing Config.reference)).env.producer.delay = 0 ∧
      (producing (fullRing Config.reference)).cfg.hasRc = true ∧
      (producing (fullRing Config.reference)).wFull = true ∧ (producing (fullRing Config.reference)).wHeld = false) ∧
    (producing (fresh Config.reference)).cfg.hasRc = true ∧
    (producing (fresh Config.reference)).env.producer.delay = 0 ∧ (producing (fresh Config.reference)).wFull = false ∧
    (producing (fresh Config.reference)).env.producer.next < 2 ^ (producing (fresh Config.reference)).cfg.dataBits ∧
    1 ≤ (producing (fresh Config.reference)).cfg.delayBound := by decide

/-- A state whose script is one pseudo-operation. -/
def scripted (s : State) (p : Pseudo) : State := { s with env.inputs := [.pseudo p] }

theorem witness_PushAndPopHonourTheFlags :
    ((scripted (fullRing plainCfg) (.push 0xFFFFFF)).env.inputs =
        .pseudo (if false then .pushArm 0xFFFFFF else .push 0xFFFFFF) :: [] ∧
      (scripted (fullRing plainCfg) (.push 0xFFFFFF)).wFull = true) ∧
    ((scripted (oneRecord Config.reference) (.pushArm 0xFFFFFF)).env.inputs =
        .pseudo (if true then .pushArm 0xFFFFFF else .push 0xFFFFFF) :: [] ∧
      (oneRecord Config.reference).cfg.hasRc = true ∧ (oneRecord Config.reference).wFull = false ∧
      0xFFFFFF < 2 ^ (oneRecord Config.reference).cfg.dataBits ∧
      (fullRing Config.reference).wFull = true ∧ (fullRing Config.reference).wHeld = false) ∧
    2 ^ (oneRecord Config.reference).cfg.dataBits ≤ 0x1000000 ∧
    ((scripted (fresh plainCfg) (.pushArm 0)).env.inputs = .pseudo (.pushArm 0) :: [] ∧ plainCfg.hasRc = false) ∧
    (scripted (oneRecord plainCfg) .pop).env.inputs = .pseudo .pop :: [] ∧
    (fullRing plainCfg).rEmpty = true ∧ (oneRecord plainCfg).rEmpty = false := by decide

theorem witness_ResetSequenceReleasesBothDomains :
    Config.wf { plainCfg with rstStages := 1 } = true ∧
    ({ fullRing { plainCfg with rstStages := 1 } with env.inputs := [.pseudo (.reset [.read, .write])] } : State).env.inputs =
      .pseudo (.reset [.read, .write]) :: [] := by decide

/-- Two states that differ in a record and nothing else, offered two records. -/
theorem witness_RecordBitsNeverSteer :
    (oneRecord plainCfg).blankRecords =
      ({ oneRecord plainCfg with mem := [(0, 0xFFFFFF)], g.accepted := [0xFFFFFF] } : State).blankRecords ∧
    blankOperand (.wEnq 1) = blankOperand (.wEnq 2) ∧ (∃ t, exec (.wEnq 1) (oneRecord plainCfg) = .next t) ∧
    ∃ t, exec (.wEnq 2) { oneRecord plainCfg with mem := [(0, 0xFFFFFF)], g.accepted := [0xFFFFFF] } = .next t :=
  ⟨by decide, by decide, ⟨_, exec_of_wellFormed (by decide)⟩, _, exec_of_wellFormed (by decide)⟩

end Sys2Proof.Machine
end

/-! The obligations of 00_scope.md. R8: blanking every record (`State.blankRecords`) commutes with every operation, and
so no record decides what an operation does. R22: a step is `exec` of the decoded operation. -/

namespace Sys2Proof.Machine

/-! ### The branch a tick takes, given its condition (R126; `tick_cases` finds the condition) -/

theorem tick_disabled {m : Nat} {pre : State} (hen : pre.r.enable = false) (post : State) : tick m pre post = post := by
  simp [tick, hen]

theorem tick_waiting {m : Nat} {pre : State} (hen : pre.r.enable = true)
    (hc : nextCycle pre.cfg pre.r.cycle < effectivePeriod pre.r.consumeEvery m) (post : State) :
    tick m pre post = { post with r.cycle := nextCycle pre.cfg pre.r.cycle } := by
  simp [tick, hen, hc]

theorem tick_drain {m : Nat} {pre : State} (hen : pre.r.enable = true)
    (hc : effectivePeriod pre.r.consumeEvery m ≤ nextCycle pre.cfg pre.r.cycle) (hem : pre.rEmpty = false)
    (post : State) : tick m pre post = drain m pre post := by
  simp [tick, hen, hc.not_gt, hem]

theorem tick_underrun {m : Nat} {pre : State} (hen : pre.r.enable = true)
    (hc : effectivePeriod pre.r.consumeEvery m ≤ nextCycle pre.cfg pre.r.cycle) (hem : pre.rEmpty = true)
    (post : State) : tick m pre post = underrun m pre post := by
  simp [tick, hen, hc.not_gt, hem]

/-! ### Blanking twice is blanking once -/

@[simp] theorem blankRecords_blankRecords (s : State) : s.blankRecords.blankRecords = s.blankRecords := by
  simp [State.blankRecords, Function.comp_def]

/-! ### Blanking commutes with the parts of an edge

The edge is run a second time on blanked states, with the operand blanked; both results agree once blanked. The outer
blanking on the right is needed where the record a read presents is written: a blanked slot may still present a free
value. -/

/-- Blanking commutes with an operation step: `op` has its own record operand, `op'` the blank one. -/
def BlankCommutes (op op' : State → State → State) : Prop :=
  ∀ pre post, (op pre post).blankRecords = (op' pre.blankRecords post.blankRecords).blankRecords

theorem blankCommutes_noOperation : BlankCommutes noOperation noOperation := fun _ post =>
  (blankRecords_blankRecords post).symm

theorem blankRecords_raise (m : Misuse) (post : State) :
    (raise m post).blankRecords = (raise m post.blankRecords).blankRecords := by
  cases m <;> simp [raise, State.blankRecords, Function.comp_def]

theorem blankRecords_acceptRecord (d : Nat) (pre post : State) :
    (acceptRecord d pre post).blankRecords = acceptRecord 0 pre.blankRecords post.blankRecords := by
  have hmem := Memory.map_write pre.mem (fun _ => 0) pre.w.wptrBin d
  simp only [acceptRecord, State.blankRecords, State.enqSlot, recordOperand, hmem, List.map_append,
    List.map_singleton]
  rfl

theorem blankRecords_consumeRecord (pre post : State) :
    (consumeRecord pre post).blankRecords = (consumeRecord pre.blankRecords post.blankRecords).blankRecords := by
  simp [consumeRecord, State.blankRecords, Function.comp_def]

theorem blankRecords_drain (m : Nat) (pre post : State) :
    (drain m pre post).blankRecords = (drain m pre.blankRecords post.blankRecords).blankRecords := by
  simp [drain, consumeRecord, State.blankRecords, Function.comp_def]

theorem blankRecords_underrun (m : Nat) (pre post : State) :
    (underrun m pre post).blankRecords = (underrun m pre.blankRecords post.blankRecords).blankRecords := by
  simp [underrun, State.blankRecords, Function.comp_def]

theorem blankCommutes_enqueue (d : Nat) : BlankCommutes (enqueue d) (enqueue 0) := by
  intro pre post
  cases hf : pre.wFull with
  | true => rw [enqueue_full hf, enqueue_full (pre := pre.blankRecords) hf, blankRecords_raise]
  | false =>
    rw [enqueue_room hf, enqueue_room (pre := pre.blankRecords) hf, blankRecords_acceptRecord d,
      blankRecords_acceptRecord 0, blankRecords_blankRecords, blankRecords_blankRecords]

theorem blankCommutes_dequeue : BlankCommutes dequeue dequeue := by
  intro pre post
  cases he : pre.rEmpty with
  | true => rw [dequeue_empty he, dequeue_empty (pre := pre.blankRecords) he, blankRecords_raise]
  | false => rw [dequeue_visible he, dequeue_visible (pre := pre.blankRecords) he, blankRecords_consumeRecord]

/-- R126: the branch a tick takes, and the period it reports, depend on no record. -/
theorem blankCommutes_tick (m : Nat) : BlankCommutes (tick m) (tick m) := by
  intro pre post
  rcases tick_cases m pre post with ⟨hen, e⟩ | ⟨hen, hc, e⟩ | ⟨hen, hc, hem, e⟩ | ⟨hen, hc, hem, e⟩
  case inl =>
    rw [e, tick_disabled (pre := pre.blankRecords) hen, blankRecords_blankRecords]
  case inr.inl =>
    rw [e, tick_waiting (pre := pre.blankRecords) hen hc]
    exact (blankRecords_blankRecords { post with r.cycle := nextCycle pre.cfg pre.r.cycle }).symm
  case inr.inr.inl =>
    rw [e, tick_drain (pre := pre.blankRecords) hen hc hem, blankRecords_drain]
  case inr.inr.inr =>
    rw [e, tick_underrun (pre := pre.blankRecords) hen hc hem, blankRecords_underrun]

theorem blankRecords_wEdge {op op' : State → State → State} (h : BlankCommutes op op') (a : Bool) (s : State) :
    (wEdge a op s).blankRecords = (wEdge a op' s.blankRecords).blankRecords := by
  cases hh : s.wHeld with
  | true =>
    rw [wEdge_held hh, wEdge_held (s := s.blankRecords) hh]
    exact (blankRecords_blankRecords _).symm
  | false =>
    rw [wEdge_released hh, wEdge_released (s := s.blankRecords) hh]
    exact h s (writeFrame a s)

theorem blankRecords_rEdge {op op' : State → State → State} (h : BlankCommutes op op') (s : State) :
    (rEdge op s).blankRecords = (rEdge op' s.blankRecords).blankRecords := by
  cases hh : s.rHeld with
  | true =>
    rw [rEdge_held hh, rEdge_held (s := s.blankRecords) hh]
    exact (blankRecords_blankRecords { s with r.rRs := shiftIn s.rstIn s.r.rRs }).symm
  | false =>
    rw [rEdge_released hh, rEdge_released (s := s.blankRecords) hh]
    exact h s (readFrame s)

theorem blankRecords_resetAll (s : State) :
    (resetAll s).blankRecords = (resetAll s.blankRecords).blankRecords := by
  simp [resetAll, State.blankRecords, Function.comp_def]

/-! ### Every operation -/

/-- R8: what an operation leaves, but for records, it leaves of the blanked state too. -/
theorem blankRecords_after (i : Instr) (s : State) :
    (after i s).blankRecords = (after (blankOperand i) s.blankRecords).blankRecords := by
  cases i with
  | wNop d => exact blankRecords_wEdge blankCommutes_noOperation false s
  | wEnq d => exact blankRecords_wEdge (blankCommutes_enqueue d) false s
  | wArm d => exact blankRecords_wEdge blankCommutes_noOperation true s
  | wEnqArm d => exact blankRecords_wEdge (blankCommutes_enqueue d) true s
  | rNop m => exact blankRecords_rEdge blankCommutes_noOperation s
  | rDeq m => exact blankRecords_rEdge blankCommutes_dequeue s
  | rcTick m => exact blankRecords_rEdge (blankCommutes_tick m) s
  | resetAssert => exact blankRecords_resetAll s
  | resetDeassert => exact (blankRecords_blankRecords { s with rstIn := false }).symm

/-- Settles O60: both executions leave, but for records, what the one blanked operation leaves of the one blanked
state. -/
theorem recordBitsNeverSteer : Obligations.RecordBitsNeverSteer := by
  intro s s' t t' i i' hs hi ht ht'
  obtain ⟨-, rfl⟩ := exec_next ht
  obtain ⟨-, rfl⟩ := exec_next ht'
  rw [blankRecords_after i, blankRecords_after i', hs, hi]

/-! ### A step -/

/-- A sample line whose word decodes runs the operation it decodes to. -/
theorem runLine_of_decode {s : State} {f : Format} {word : Nat} {i : Instr} (h : decode s.cfg f word = .ok i)
    (draws : Draws) : runLine (.sample f word draws) s = exec i s := by
  simp [runLine, h]

/-- Settles O5: the line presented is the head of the script, and it is run in the loaded state. -/
theorem stepRunsTheDecodedOperation : Obligations.StepRunsTheDecodedOperation := by
  intro s f word draws rest i hline hdec
  rw [step_line hline, runLine_of_decode (s := s.loaded) hdec, loaded_line hline]
  rfl

end Sys2Proof.Machine

/-! The obligations of 10_state.md: one edge of a chain, what a reset assertion leaves, what an operation stores, and the
widths every step keeps. The last is one lemma per part of an edge (`wf_writeFrame`, `wf_acceptRecord`, ...), each of
which names only the registers it writes. -/

namespace Sys2Proof.Machine

/-! ### Chains -/

/-- Settles O13. -/
theorem chainShiftsOneStage : Obligations.ChainShiftsOneStage := fun _ v chain =>
  ⟨shiftIn_length v chain, shiftIn_getElem?_zero v, fun _ hk => shiftIn_getElem?_succ v hk⟩

/-! ### Reset -/

/-- Settles O30: the state is `resetAll s`, in which no slot is specified (`resetAll_slotContent`). -/
theorem resetAssertSetsEveryRegister : Obligations.ResetAssertSetsEveryRegister := fun s =>
  ⟨resetAll s, exec_of_wellFormed rfl, rfl, rfl, rfl, rfl, rfl, rfl, rfl, rfl, rfl, resetAll_slotContent s, rfl⟩

/-! ### What an operation stores (R45, R54) -/

theorem acceptsEnqueue_of_full (i : Instr) {s : State} (h : s.wFull = true) : acceptsEnqueue i s = false := by
  simp [acceptsEnqueue, h]

theorem acceptsEnqueue_of_no_request {i : Instr} (h : requestsEnqueue i = false) (s : State) :
    acceptsEnqueue i s = false := by
  simp [acceptsEnqueue, h]

/-- R93: only an operation of the write domain requests an enqueue. -/
theorem requestsEnqueue_of_format {i : Instr} : i.format ≠ .we → requestsEnqueue i = false := by
  cases i <;> simp [Instr.format, requestsEnqueue]

/-- R89: a held write domain shows itself full. -/
theorem full_of_held {s : State} (h : s.wHeld = true) : s.wFull = true := by
  simp [State.wFull, h]

/-- An enqueue offers one record. -/
theorem offered_unique {i : Instr} {d d' : Nat} (h : i = .wEnq d ∨ i = .wEnqArm d)
    (h' : i = .wEnq d' ∨ i = .wEnqArm d') : d' = d := by
  rcases h with rfl | rfl <;> simpa [eq_comm] using h'

theorem acceptsEnqueue_of_room {i : Instr} {s : State} {d : Nat} (hi : i = .wEnq d ∨ i = .wEnqArm d)
    (h : s.wFull = false) : acceptsEnqueue i s = true := by
  rcases hi with rfl | rfl <;> simp [acceptsEnqueue, requestsEnqueue, h]

@[simp] theorem tick_mem (m : Nat) (pre post : State) : (tick m pre post).mem = post.mem := by
  rcases tick_cases m pre post with ⟨-, e⟩ | ⟨-, -, e⟩ | ⟨-, -, -, e⟩ | ⟨-, -, -, e⟩ <;> rw [e] <;> rfl

@[simp] theorem tick_stale (m : Nat) (pre post : State) : (tick m pre post).stale = post.stale := by
  rcases tick_cases m pre post with ⟨-, e⟩ | ⟨-, -, e⟩ | ⟨-, -, -, e⟩ | ⟨-, -, -, e⟩ <;> rw [e] <;> rfl

/-- R45, R54: an operation either is an accepted enqueue, or leaves the storage alone; a reset assertion marks every
slot that holds a record as stale. -/
theorem exec_storage_cases {i : Instr} {s t : State} (h : exec i s = .next t) :
    (acceptsEnqueue i s = true ∧ ∃ d, (i = .wEnq d ∨ i = .wEnqArm d) ∧
      t = acceptRecord d s (writeFrame (armLevel i) s)) ∨
    (acceptsEnqueue i s = false ∧ t.mem = s.mem ∧ (i ≠ .resetAssert → t.stale = s.stale)) := by
  rcases exec_next_cases h with ⟨-, hh, rfl⟩ | ⟨-, -, hreq, rfl⟩ | ⟨d, hi, -, hroom, rfl⟩ | ⟨d, -, -, hfull, rfl⟩ |
    ⟨hre, -, rfl⟩ | ⟨m, rfl, -, rfl⟩ | ⟨m, rfl, -, -, rfl⟩ | ⟨m, rfl, -, -, -, rfl⟩ | ⟨m, rfl, -, -, -, rfl⟩ |
    ⟨rfl, rfl⟩ | ⟨rfl, rfl⟩
  · exact .inr ⟨acceptsEnqueue_of_full i (full_of_held hh), rfl, fun _ => rfl⟩
  · exact .inr ⟨acceptsEnqueue_of_no_request hreq s, rfl, fun _ => rfl⟩
  · exact .inl ⟨acceptsEnqueue_of_room hi hroom, d, hi, rfl⟩
  · exact .inr ⟨acceptsEnqueue_of_full i hfull, rfl, fun _ => rfl⟩
  · have hreq := requestsEnqueue_of_format (i := i) (by simp [hre])
    exact .inr ⟨acceptsEnqueue_of_no_request hreq s, rfl, fun _ => rfl⟩
  · exact .inr ⟨rfl, rfl, fun _ => rfl⟩
  · exact .inr ⟨rfl, rfl, fun _ => rfl⟩
  · exact .inr ⟨rfl, rfl, fun _ => rfl⟩
  · exact .inr ⟨rfl, tick_mem m s _, fun _ => tick_stale m s _⟩
  · exact .inr ⟨rfl, rfl, fun hne => absurd rfl hne⟩
  · exact .inr ⟨rfl, rfl, fun _ => rfl⟩

/-- R45: what a slot is specified to hold depends on the storage alone. -/
theorem slotContent_congr {s t : State} (hmem : t.mem = s.mem) (hstale : t.stale = s.stale) (slot : Nat) :
    t.slotContent slot = s.slotContent slot := by
  simp [State.slotContent, hmem, hstale]

/-- Settles O35, by the two cases of `exec_storage_cases`. -/
theorem onlyAnAcceptedEnqueueStores : Obligations.OnlyAnAcceptedEnqueueStores := by
  intro s t i h
  rcases exec_storage_cases h with ⟨hacc, d, hi, rfl⟩ | ⟨hacc, hmem, hstale⟩
  case inl =>
    refine ⟨by simp [hacc], fun _ slot hslot => Memory.read_write_other s.mem d hslot,
      fun _ slot hslot => acceptRecord_slotContent_other d s _ (hslot hacc), fun d' hi' _ => ?_⟩
    obtain rfl := offered_unique hi hi'
    exact ⟨Memory.read_write_same s.mem s.w.wptrBin d', acceptRecord_slotContent_same d' s _⟩
  case inr =>
    exact ⟨fun _ slot => by rw [hmem], by simp [hacc], fun hne slot _ => slotContent_congr hmem (hstale hne) slot,
      by simp [hacc]⟩

/-! ### Widths of what an edge computes -/

theorem asRecord_lt (c : Config) (v : Nat) : asRecord c v < 2 ^ c.dataBits := Nat.mod_lt _ (Nat.two_pow_pos _)

theorem nextCycle_lt (c : Config) (n : Nat) : nextCycle c n < 2 ^ (c.periodBits + 1) := Nat.mod_lt _ (Nat.two_pow_pos _)

/-- R125: the sum of two `P`-bit values has `P + 1` bits. -/
theorem effectivePeriod_lt {P n m : Nat} (hn : n < 2 ^ P) (hm : m < 2 ^ P) : effectivePeriod n m < 2 ^ (P + 1) := by
  rw [effectivePeriod, modifierOperand, pow_succ]
  omega

theorem nextConsumeEvery_lt (c : Config) (n : Nat) : nextConsumeEvery c n < 2 ^ c.periodBits := by
  have := Nat.two_pow_pos c.periodBits
  rw [nextConsumeEvery, sat]
  omega

/-- R12: `P` is at least 1. -/
theorem one_lt_two_pow_periodBits {c : Config} (h : c.wf = true) : 1 < 2 ^ c.periodBits :=
  Nat.one_lt_two_pow (by simp [Config.wf] at h; omega)

/-- R126: the saturated successor is positive, since a period register holds at least 1. -/
theorem one_le_nextConsumeEvery {c : Config} (h : c.wf = true) (n : Nat) : 1 ≤ nextConsumeEvery c n := by
  have := one_lt_two_pow_periodBits h
  rw [nextConsumeEvery, sat]
  omega

/-- What holds of both values a capture may take holds of every stage after the edge. -/
theorem forall_mem_shiftIn {α : Type} {p : α → Prop} {cur prev : α} {c : Prop} [Decidable c] {chain : List α}
    (hcur : p cur) (hprev : p prev) (hchain : ∀ v ∈ chain, p v) :
    ∀ v ∈ shiftIn (if c then prev else cur) chain, p v := by
  intro v hv
  rcases mem_shiftIn hv with rfl | hv
  · split
    · exact hprev
    · exact hcur
  · exact hchain v hv

theorem unspecifiedRecord_lt (s : State) (slot : Nat) : s.unspecifiedRecord slot < 2 ^ s.cfg.dataBits :=
  asRecord_lt _ _

/-- R51, R100: what a slot or the read port presents is a `W`-bit record. -/
theorem slotRecord_lt {s : State} (h : s.Wf) (slot : Nat) : s.slotRecord slot < 2 ^ s.cfg.dataBits := by
  cases hc : s.slotContent slot with
  | none => simpa [State.slotRecord, hc] using unspecifiedRecord_lt s slot
  | some v =>
    have hread : s.mem.read slot = some v := by
      simp only [State.slotContent] at hc
      split at hc
      · cases hc
      · exact hc
    rw [slotRecord_of_content hc]
    exact h.memRecords _ (Memory.read_mem hread)

theorem rData_lt {s : State} (h : s.Wf) : s.rData < 2 ^ s.cfg.dataBits := by
  rw [State.rData]
  split
  · exact asRecord_lt _ _
  · exact slotRecord_lt h _

/-! ### The storage's canonical form -/

theorem Memory.isChain_of_risingAbove {b : Nat} {m : Memory} (h : Memory.risingAbove b m = true) :
    (b :: m.map Prod.fst).IsChain (· < ·) := by
  induction m generalizing b with
  | nil => simp
  | cons cell m ih =>
    simp only [Memory.risingAbove, Bool.and_eq_true, decide_eq_true_eq] at h
    exact List.isChain_cons_cons.mpr ⟨h.1, ih h.2⟩

/-- The slots of a canonical storage rise strictly. -/
theorem Memory.pairwise_of_wf {m : Memory} (h : m.wf = true) : (m.map Prod.fst).Pairwise (· < ·) := by
  cases m with
  | nil => exact .nil
  | cons cell m => exact List.isChain_iff_pairwise.mp (Memory.isChain_of_risingAbove h)

/-! ### Every part of an edge keeps the state well formed -/

theorem wf_withEnv {s : State} (h : s.Wf) (e : Environment) : ({ s with env := e } : State).Wf := { h with }

theorem wf_withRstIn {s : State} (h : s.Wf) (b : Bool) : ({ s with rstIn := b } : State).Wf := { h with }

theorem wf_withWRs {s : State} (h : s.Wf) (b : Bool) : ({ s with w.wRs := shiftIn b s.w.wRs } : State).Wf :=
  { h with wRsLength := by simpa using h.wRsLength }

theorem wf_withRRs {s : State} (h : s.Wf) (b : Bool) : ({ s with r.rRs := shiftIn b s.r.rRs } : State).Wf :=
  { h with rRsLength := by simpa using h.rRsLength }

theorem wf_raise {s : State} (h : s.Wf) (m : Misuse) : (raise m s).Wf := by
  cases m with
  | overflow => exact { h with }
  | underflow => exact { h with }

/-- R88: the frame of a W-edge; without the companion it leaves the arm alone. -/
theorem wf_writeFrame {s : State} (h : s.Wf) (a : Bool) : (writeFrame a s).Wf :=
  { h with
    wqLength := by simpa [writeFrame] using h.wqLength
    wq := forall_mem_shiftIn h.rptrGray h.rgrayPrev h.wq
    wRsLength := by simpa using h.wRsLength
    companionAbsent := fun hrc => by
      have hrc : s.cfg.hasRc = false := hrc
      simpa [writeFrame, hrc] using h.companionAbsent hrc }

/-- R96: the frame of an R-edge; without the companion it leaves the companion's registers alone. -/
theorem wf_readFrame {s : State} (h : s.Wf) : (readFrame s).Wf :=
  { h with
    rqLength := by simpa [readFrame] using h.rqLength
    rq := forall_mem_shiftIn h.wptrGray h.wgrayPrev h.rq
    rRsLength := by simpa using h.rRsLength
    armSLength := by
      cases hrc : s.cfg.hasRc <;> simpa [readFrame, hrc] using h.armSLength
    companionAbsent := fun hrc => by
      have hrc : s.cfg.hasRc = false := hrc
      simpa [readFrame, hrc] using h.companionAbsent hrc }

/-- R93: the slot written is the pointer's and the record has `W` bits; the slot is stale no more. -/
theorem wf_acceptRecord {s : State} (h : s.Wf) {d : Nat} (hd : d < 2 ^ s.cfg.dataBits) (a : Bool) :
    (acceptRecord d s (writeFrame a s)).Wf :=
  { wf_writeFrame h a with
    wptrBin := incPtr_lt s.cfg _
    wptrGray := gray_lt (incPtr_lt s.cfg _)
    wgrayPrev := h.wptrGray
    memCanonical := Memory.write_wf _ _ h.memCanonical
    memSlots := fun cell hcell => by
      rcases Memory.mem_write hcell with rfl | hcell
      · exact h.wptrBin
      · exact h.memSlots cell hcell
    memRecords := fun cell hcell => by
      rcases Memory.mem_write hcell with rfl | hcell
      · exact hd
      · exact h.memRecords cell hcell
    staleRising := h.staleRising.filter _
    staleHeld := fun slot hslot => by
      obtain ⟨hold, hne⟩ : slot ∈ s.stale ∧ slot ≠ s.w.wptrBin := by simpa using hslot
      rw [acceptRecord_mem, Memory.read_write_other _ _ hne]
      exact h.staleHeld slot hold }

theorem wf_consumeRecord {s : State} (h : s.Wf) : (consumeRecord s (readFrame s)).Wf :=
  { wf_readFrame h with
    rptrBin := incPtr_lt s.cfg _
    rptrGray := gray_lt (incPtr_lt s.cfg _)
    rgrayPrev := h.rptrGray }

section Tick

variable {s : State} {m : Nat} (h : s.Wf) (hrc : s.cfg.hasRc = true) (hm : m < 2 ^ s.cfg.periodBits)
include h hrc

/-- R126: a tick that is not due only counts. -/
theorem wf_withNextCycle : ({ readFrame s with r.cycle := nextCycle s.cfg s.r.cycle } : State).Wf :=
  { wf_readFrame h with
    cycle := nextCycle_lt _ _
    companionAbsent := fun hno => nomatch hrc.symm.trans hno }

include hm

theorem wf_drain : (drain m s (readFrame s)).Wf :=
  { wf_consumeRecord h with
    cycle := Nat.two_pow_pos _
    rptData := rData_lt h
    rptPeriod := effectivePeriod_lt h.consumeEvery hm
    companionAbsent := fun hno => nomatch hrc.symm.trans hno }

theorem wf_underrun : (underrun m s (readFrame s)).Wf :=
  { wf_readFrame h with
    cycle := Nat.two_pow_pos _
    consumeEveryPos := one_le_nextConsumeEvery h.cfg _
    consumeEvery := nextConsumeEvery_lt _ _
    rptPeriod := effectivePeriod_lt (nextConsumeEvery_lt _ _) hm
    companionAbsent := fun hno => nomatch hrc.symm.trans hno }

theorem wf_tick : (tick m s (readFrame s)).Wf := by
  rcases tick_cases m s (readFrame s) with ⟨-, e⟩ | ⟨-, -, e⟩ | ⟨-, -, -, e⟩ | ⟨-, -, -, e⟩ <;> rw [e]
  · exact wf_readFrame h
  · exact wf_withNextCycle h hrc
  · exact wf_drain h hrc hm
  · exact wf_underrun h hrc hm

end Tick

/-- R49, R150: the reset values have their declared widths and lengths, and the slots now stale are those of the
canonical storage. -/
theorem wf_resetAll {s : State} (h : s.Wf) : (resetAll s).Wf :=
  have hzero := slots_pos s.cfg
  { cfg := h.cfg
    wptrBin := hzero
    wptrGray := hzero
    wqLength := List.length_replicate
    wq := fun _ hv => List.eq_of_mem_replicate hv ▸ hzero
    wRsLength := List.length_replicate
    rptrBin := hzero
    rptrGray := hzero
    rqLength := List.length_replicate
    rq := fun _ hv => List.eq_of_mem_replicate hv ▸ hzero
    rRsLength := List.length_replicate
    armSLength := List.length_replicate
    cycle := Nat.two_pow_pos _
    consumeEveryPos := le_rfl
    consumeEvery := one_lt_two_pow_periodBits h.cfg
    rptData := Nat.two_pow_pos _
    rptPeriod := Nat.two_pow_pos _
    wgrayPrev := hzero
    rgrayPrev := hzero
    memCanonical := h.memCanonical
    memSlots := h.memSlots
    memRecords := h.memRecords
    staleRising := Memory.pairwise_of_wf h.memCanonical
    staleHeld := fun _ hslot hnone => Memory.read_eq_none.mp hnone hslot
    companionAbsent := fun _ =>
      ⟨rfl, fun _ hb => List.eq_of_mem_replicate hb, rfl, rfl, rfl, rfl, rfl, rfl, rfl, rfl⟩ }

/-- Every operation keeps the state well formed. -/
theorem exec_keeps_wf {i : Instr} {s t : State} (hwf : s.Wf) (h : exec i s = .next t) : t.Wf := by
  rcases exec_next_cases h with ⟨-, -, rfl⟩ | ⟨-, -, -, rfl⟩ | ⟨d, -, hd, -, rfl⟩ | ⟨d, -, -, -, rfl⟩ | ⟨-, -, rfl⟩ |
    ⟨m, -, -, rfl⟩ | ⟨m, -, -, -, rfl⟩ | ⟨m, -, -, -, -, rfl⟩ | ⟨m, -, hrc, hm, -, rfl⟩ | ⟨-, rfl⟩ | ⟨-, rfl⟩
  · exact wf_withWRs hwf _
  · exact wf_writeFrame hwf _
  · exact wf_acceptRecord hwf hd _
  · exact wf_raise (wf_writeFrame hwf _) .overflow
  · exact wf_withRRs hwf _
  · exact wf_readFrame hwf
  · exact wf_consumeRecord hwf
  · exact wf_raise (wf_readFrame hwf) .underflow
  · exact wf_tick hwf hrc hm
  · exact wf_resetAll hwf
  · exact wf_withRstIn hwf _

/-- Settles O42: a step is an operation in another environment, which no width depends on. -/
theorem wellFormedStateIsKept : Obligations.WellFormedStateIsKept := fun _ _ =>
  step_keeps fun _ _ e _ hwf h => exec_keeps_wf (wf_withEnv hwf e) h

end Sys2Proof.Machine

/-! The obligations of 20_memory.md: the one writer of each domain's registers, the ring invariant (R117) kept by every
operation with the tags it carries (`exec_keeps_ring`), and from it the FIFO order, the record shown, and the arm that
never overtakes the data. -/

namespace Sys2Proof.Machine

/-! ### Each domain's registers have one writer (R60) -/

/-- An operation step of the write port leaves what the read domain owns. -/
def KeepsReadSide (op : State → State → State) : Prop :=
  ∀ pre post, (op pre post).r = post.r ∧ (op pre post).rstIn = post.rstIn ∧
    (op pre post).x.rgrayPrev = post.x.rgrayPrev

/-- An operation step of the read port leaves what the write domain owns. -/
def KeepsWriteSide (op : State → State → State) : Prop :=
  ∀ pre post, (op pre post).w = post.w ∧ (op pre post).mem = post.mem ∧ (op pre post).stale = post.stale ∧
    (op pre post).rstIn = post.rstIn ∧ (op pre post).x.wgrayPrev = post.x.wgrayPrev ∧
    (op pre post).x.armPrev = post.x.armPrev

theorem keepsReadSide_noOperation : KeepsReadSide noOperation := fun _ _ => ⟨rfl, rfl, rfl⟩

theorem keepsReadSide_enqueue (d : Nat) : KeepsReadSide (enqueue d) := by
  intro pre post
  cases hf : pre.wFull with
  | true => rw [enqueue_full hf]; exact ⟨rfl, rfl, rfl⟩
  | false => rw [enqueue_room hf]; exact ⟨rfl, rfl, rfl⟩

theorem keepsWriteSide_noOperation : KeepsWriteSide noOperation := fun _ _ => ⟨rfl, rfl, rfl, rfl, rfl, rfl⟩

theorem keepsWriteSide_dequeue : KeepsWriteSide dequeue := by
  intro pre post
  cases he : pre.rEmpty with
  | true => rw [dequeue_empty he]; exact ⟨rfl, rfl, rfl, rfl, rfl, rfl⟩
  | false => rw [dequeue_visible he]; exact ⟨rfl, rfl, rfl, rfl, rfl, rfl⟩

theorem keepsWriteSide_tick (m : Nat) : KeepsWriteSide (tick m) := by
  intro pre post
  rcases tick_cases m pre post with ⟨-, e⟩ | ⟨-, -, e⟩ | ⟨-, -, -, e⟩ | ⟨-, -, -, e⟩ <;> rw [e] <;>
    exact ⟨rfl, rfl, rfl, rfl, rfl, rfl⟩

theorem wEdge_keeps_readSide {op : State → State → State} (h : KeepsReadSide op) (a : Bool) (s : State) :
    (wEdge a op s).r = s.r ∧ (wEdge a op s).rstIn = s.rstIn ∧ (wEdge a op s).x.rgrayPrev = s.x.rgrayPrev := by
  cases hh : s.wHeld with
  | true => rw [wEdge_held hh]; exact ⟨rfl, rfl, rfl⟩
  | false => rw [wEdge_released hh]; exact h s (writeFrame a s)

theorem rEdge_keeps_writeSide {op : State → State → State} (h : KeepsWriteSide op) (s : State) :
    (rEdge op s).w = s.w ∧ (rEdge op s).mem = s.mem ∧ (rEdge op s).stale = s.stale ∧
      (rEdge op s).rstIn = s.rstIn ∧ (rEdge op s).x.wgrayPrev = s.x.wgrayPrev ∧
      (rEdge op s).x.armPrev = s.x.armPrev := by
  cases hh : s.rHeld with
  | true => rw [rEdge_held hh]; exact ⟨rfl, rfl, rfl, rfl, rfl, rfl⟩
  | false => rw [rEdge_released hh]; exact h s (readFrame s)

theorem after_keeps_readSide {i : Instr} (hi : i.format = .we) (s : State) :
    (after i s).r = s.r ∧ (after i s).rstIn = s.rstIn ∧ (after i s).x.rgrayPrev = s.x.rgrayPrev := by
  cases i with
  | wNop d => exact wEdge_keeps_readSide keepsReadSide_noOperation false s
  | wEnq d => exact wEdge_keeps_readSide (keepsReadSide_enqueue d) false s
  | wArm d => exact wEdge_keeps_readSide keepsReadSide_noOperation true s
  | wEnqArm d => exact wEdge_keeps_readSide (keepsReadSide_enqueue d) true s
  | rNop _ | rDeq _ | rcTick _ | resetAssert | resetDeassert => cases hi

theorem after_keeps_writeSide {i : Instr} (hi : i.format = .re) (s : State) :
    (after i s).w = s.w ∧ (after i s).mem = s.mem ∧ (after i s).stale = s.stale ∧ (after i s).rstIn = s.rstIn ∧
      (after i s).x.wgrayPrev = s.x.wgrayPrev ∧ (after i s).x.armPrev = s.x.armPrev := by
  cases i with
  | rNop m => exact rEdge_keeps_writeSide keepsWriteSide_noOperation s
  | rDeq m => exact rEdge_keeps_writeSide keepsWriteSide_dequeue s
  | rcTick m => exact rEdge_keeps_writeSide (keepsWriteSide_tick m) s
  | wNop _ | wEnq _ | wArm _ | wEnqArm _ | resetAssert | resetDeassert => cases hi

/-- Settles O34: each edge is its frame with an operation step, and neither writes the other domain's registers. -/
theorem eachDomainWritesOnlyItsOwn : Obligations.EachDomainWritesOnlyItsOwn := by
  intro s t i h
  obtain ⟨-, rfl⟩ := exec_next h
  refine ⟨fun hi => after_keeps_readSide hi s, fun hi => after_keeps_writeSide hi s, ?_⟩
  rintro rfl
  exact ⟨rfl, rfl, rfl, rfl, rfl, rfl⟩

/-! ### The last stage of a chain -/

theorem getLastD_mem {α : Type} {l : List α} (h : l ≠ []) (d : α) : l.getLastD d ∈ l := by
  rw [List.getLastD_eq_getLast?, List.getLast?_eq_getLast_of_ne_nil h]
  exact List.getLast_mem h

/-- In a chain whose tags do not rise, the last stage has the least. -/
theorem getLastD_le_of_pairwise {l : List Nat} (h : l.Pairwise (· ≥ ·)) (d : Nat) : ∀ t ∈ l, l.getLastD d ≤ t := by
  intro t ht
  rw [List.getLastD_eq_getLast?, List.getLast?_eq_getLast_of_ne_nil (List.ne_nil_of_mem ht)]
  exact h.rel_getLast ht

theorem shiftIn_eq_dropLast {α : Type} (v : α) (l : List α) : shiftIn v l = (v :: l).dropLast := by
  cases l with
  | nil => rfl
  | cons a l => rw [shiftIn_eq_cons_dropLast v (by simp), List.dropLast_cons_cons]

/-- R115: a chain of tags stays in order when the tag sampled stands between its source and its stages. -/
theorem pairwise_cons_shiftIn {count v : Nat} {l : List Nat} (hv : v ≤ count) (hl : ∀ t ∈ l, t ≤ v)
    (h : (count :: l).Pairwise (· ≥ ·)) : (count :: shiftIn v l).Pairwise (· ≥ ·) := by
  have hcons : (count :: v :: l).Pairwise (· ≥ ·) := by
    obtain ⟨hcount, hpair⟩ := List.pairwise_cons.mp h
    refine List.pairwise_cons.mpr ⟨fun t ht => ?_, List.pairwise_cons.mpr ⟨hl, hpair⟩⟩
    rcases List.mem_cons.mp ht with rfl | ht
    · exact hv
    · exact hcount t ht
  rw [shiftIn_eq_dropLast]
  exact hcons.sublist ((List.dropLast_sublist (v :: l)).cons_cons count)

/-! ### Tags (R115) -/

theorem tagGray_zero (c : Config) : tagGray c 0 = 0 := by
  simp [tagGray, gray]

/-- R114: the last stage holds the published value of the last tag. -/
theorem getLastD_map_tagGray (c : Config) (tags : List Nat) :
    (tags.map (tagGray c)).getLastD 0 = tagGray c (tags.getLastD 0) := by
  rw [List.getLastD_eq_getLast?, List.getLastD_eq_getLast?, List.getLast?_map]
  cases tags.getLast? with
  | none => exact (tagGray_zero c).symm
  | some tag => rfl

/-- R110: the tag a first stage takes from a source with `count` accepted operations. -/
def sampledTag (dirty old : Bool) (count : Nat) : Nat := if dirty = true ∧ old = true then count - 1 else count

theorem sampledTag_le (dirty old : Bool) (count : Nat) : sampledTag dirty old count ≤ count := by
  unfold sampledTag
  split <;> omega

/-- R115: what the stages behind a source have not passed, a sample of it does not fall below. -/
theorem le_sampledTag {dirty old : Bool} {count tag : Nat} (h : tag ≤ count)
    (hdirty : dirty = true → tag ≤ count - 1) : tag ≤ sampledTag dirty old count := by
  unfold sampledTag
  split
  next hc => exact hdirty hc.1
  next => exact h

/-- R110, R114: a first stage takes the published value of the tag sampled. -/
theorem capture_eq_tagGray {c : Config} {cur prev count : Nat} {dirty old : Bool} (hcur : cur = tagGray c count)
    (hprev : dirty = true → prev = tagGray c (count - 1)) :
    (if dirty = true ∧ old = true then prev else cur) = tagGray c (sampledTag dirty old count) := by
  unfold sampledTag
  split
  next hc => exact hprev hc.1
  next => exact hcur

/-- R112, R115: the tag `SyncR2W` samples at a W-edge. -/
def State.headSample (s : State) : Nat := sampledTag s.x.rgrayDirty (s.drawsOld .wq1) s.g.deqCount

/-- R111, R115: the tag `SyncW2R` samples at an R-edge. -/
def State.tailSample (s : State) : Nat := sampledTag s.x.wgrayDirty (s.drawsOld .rq1) s.g.enqCount

/-- R115: the tags of `wq[1..S]` after an operation that is no reset assertion. -/
def nextWt (i : Instr) (s : State) (wt : List Nat) : List Nat :=
  if i.format = .we ∧ s.wHeld = false then shiftIn s.headSample wt else wt

/-- R115: the tags of `rq[1..S]` after an operation that is no reset assertion. -/
def nextRt (i : Instr) (s : State) (rt : List Nat) : List Nat :=
  if i.format = .re ∧ s.rHeld = false then shiftIn s.tailSample rt else rt

/-! ### What the ring invariant says of the last tags, `H` and `T`, and of the counts (R117) -/

section Ring

variable {s : State} {wt rt : List Nat} (h : RingInv s wt rt)
include h

theorem RingInv.syncStages_pos : 0 < s.cfg.syncStages := by
  have hwf := h.cfg
  simp only [Config.wf, Bool.and_eq_true, decide_eq_true_eq] at hwf
  omega

theorem RingInv.wt_ne_nil : wt ≠ [] :=
  List.ne_nil_of_length_pos (h.wqLength ▸ h.syncStages_pos)

theorem RingInv.rt_ne_nil : rt ≠ [] :=
  List.ne_nil_of_length_pos (h.rqLength ▸ h.syncStages_pos)

theorem RingInv.wView_eq : s.wView = tagGray s.cfg (wt.getLastD 0) := by
  rw [State.wView, h.wq, getLastD_map_tagGray]

theorem RingInv.rView_eq : s.rView = tagGray s.cfg (rt.getLastD 0) := by
  rw [State.rView, h.rq, getLastD_map_tagGray]

theorem RingInv.head_le_tags : ∀ t ∈ wt, wt.getLastD 0 ≤ t :=
  getLastD_le_of_pairwise (List.pairwise_cons.mp h.wqOrder).2 0

theorem RingInv.tail_le_tags : ∀ t ∈ rt, rt.getLastD 0 ≤ t :=
  getLastD_le_of_pairwise (List.pairwise_cons.mp h.rqOrder).2 0

theorem RingInv.tags_le_deqCount : ∀ t ∈ wt, t ≤ s.g.deqCount := (List.pairwise_cons.mp h.wqOrder).1

theorem RingInv.tags_le_enqCount : ∀ t ∈ rt, t ≤ s.g.enqCount := (List.pairwise_cons.mp h.rqOrder).1

/-- R117, clause 2: `H <= D`. -/
theorem RingInv.head_le_deqCount : wt.getLastD 0 ≤ s.g.deqCount :=
  h.tags_le_deqCount _ (getLastD_mem h.wt_ne_nil 0)

/-- R117, clause 2: `D <= T`. -/
theorem RingInv.deqCount_le_tail : s.g.deqCount ≤ rt.getLastD 0 := h.seen _ (getLastD_mem h.rt_ne_nil 0)

/-- R117, clause 2: `T <= E`. -/
theorem RingInv.tail_le_enqCount : rt.getLastD 0 ≤ s.g.enqCount :=
  h.tags_le_enqCount _ (getLastD_mem h.rt_ne_nil 0)

/-- R117, clause 3: `E - H < N`. -/
theorem RingInv.enqCount_lt_head_add : s.g.enqCount < wt.getLastD 0 + s.cfg.slots := by
  have hroom := h.room _ (getLastD_mem h.wt_ne_nil 0)
  have hpos := slots_pos s.cfg
  rw [Config.capacity] at hroom
  omega

theorem RingInv.tags_le_headSample : ∀ t ∈ wt, t ≤ s.headSample := fun t ht =>
  le_sampledTag (h.tags_le_deqCount t ht) fun hd => (h.rgrayDirty hd).2.2 t ht

theorem RingInv.tags_le_tailSample : ∀ t ∈ rt, t ≤ s.tailSample := fun t ht =>
  le_sampledTag (h.tags_le_enqCount t ht) fun hd => (h.wgrayDirty hd).2.2 t ht

/-- R65: no view moves backwards at an edge. -/
theorem RingInv.head_le_shifted : ∀ t ∈ shiftIn s.headSample wt, wt.getLastD 0 ≤ t := by
  intro t ht
  rcases mem_shiftIn ht with rfl | ht
  · exact h.tags_le_headSample _ (getLastD_mem h.wt_ne_nil 0)
  · exact h.head_le_tags t ht

theorem RingInv.tail_le_shifted : ∀ t ∈ shiftIn s.tailSample rt, rt.getLastD 0 ≤ t := by
  intro t ht
  rcases mem_shiftIn ht with rfl | ht
  · exact h.tags_le_tailSample _ (getLastD_mem h.rt_ne_nil 0)
  · exact h.tail_le_tags t ht

/-- R90: `w_full = 0` means that one more record keeps `E - H <= N - 1`, or the next pointer would be the view. -/
theorem RingInv.room_of_not_full (hf : s.wFull = false) : s.g.enqCount + 1 < wt.getLastD 0 + s.cfg.slots := by
  have hne : tagGray s.cfg (s.g.enqCount + 1) ≠ tagGray s.cfg (wt.getLastD 0) := by
    simp only [State.wFull, Bool.or_eq_false_iff, beq_eq_false_iff_ne] at hf
    rw [← h.wView_eq, tagGray, ← incPtr_mod, ← h.wptrBin]
    exact hf.2
  have hlt := h.enqCount_lt_head_add
  by_contra hge
  have heq : s.g.enqCount + 1 = wt.getLastD 0 + s.cfg.slots := by omega
  exact hne (by rw [heq, tagGray, Nat.add_mod_right, tagGray])

/-- R98: `r_empty = 0` means `D < T`, or the view would be the pointer. -/
theorem RingInv.deqCount_lt_tail (he : s.rEmpty = false) : s.g.deqCount < rt.getLastD 0 := by
  have hne : tagGray s.cfg s.g.deqCount ≠ tagGray s.cfg (rt.getLastD 0) := by
    simp only [State.rEmpty, Bool.or_eq_false_iff, beq_eq_false_iff_ne] at he
    rw [← h.rView_eq, ← h.rptrGray]
    exact he.2
  exact lt_of_le_of_ne h.deqCount_le_tail fun heq => hne (congrArg _ heq)

/-- R63: while `r_empty = 0`, `r_data` is the oldest record not yet consumed. -/
theorem RingInv.accepted_deqCount (he : s.rEmpty = false) : s.g.accepted[s.g.deqCount]? = some s.rData := by
  have hlt := h.deqCount_lt_tail he
  have hle := h.tail_le_enqCount
  have hstored := h.stored s.g.deqCount le_rfl (by omega)
  have hsome := List.getElem?_eq_getElem (l := s.g.accepted) (i := s.g.deqCount) (by rw [h.accepted]; omega)
  rw [← h.rptrBin, hsome] at hstored
  have hdata : s.rData = s.slotRecord s.r.rptrBin := by simp [State.rData, he, State.deqSlot]
  rw [hsome, hdata, slotRecord_of_content hstored]

/-! ### Every part of an edge keeps the ring invariant (R117) -/

theorem ring_withEnv (e : Environment) : RingInv { s with env := e } wt rt := { h with }

theorem ring_withRstIn (b : Bool) : RingInv { s with rstIn := b } wt rt := { h with }

theorem ring_withWRs (b : Bool) : RingInv { s with w.wRs := shiftIn b s.w.wRs } wt rt := { h with }

theorem ring_withRRs (b : Bool) : RingInv { s with r.rRs := shiftIn b s.r.rRs } wt rt := { h with }

theorem ring_raise (m : Misuse) : RingInv (raise m s) wt rt := by
  cases m with
  | overflow => exact { h with }
  | underflow => exact { h with }

/-- R112: a W-edge samples the head. -/
theorem ring_writeFrame (a : Bool) : RingInv (writeFrame a s) (shiftIn s.headSample wt) rt :=
  { h with
    wqLength := by simpa using h.wqLength
    wq := by
      have hcap := capture_eq_tagGray (old := s.drawsOld .wq1) h.rptrGray fun hd => (h.rgrayDirty hd).2.1
      simp only [writeFrame, hcap, h.wq, shiftIn_map]
      rfl
    wqOrder := pairwise_cons_shiftIn (sampledTag_le _ _ _) h.tags_le_headSample h.wqOrder
    room := fun t ht => by
      have hroom := h.room _ (getLastD_mem h.wt_ne_nil 0)
      have hle := h.head_le_shifted t ht
      simp only [writeFrame_g, writeFrame_cfg]
      omega
    rgrayDirty := fun hd => nomatch hd }

/-- R111: an R-edge samples the tail. -/
theorem ring_readFrame : RingInv (readFrame s) wt (shiftIn s.tailSample rt) :=
  { h with
    rqLength := by simpa using h.rqLength
    rq := by
      have hcap := capture_eq_tagGray (old := s.drawsOld .rq1) h.wptrGray fun hd => (h.wgrayDirty hd).2.1
      simp only [readFrame, hcap, h.rq, shiftIn_map]
      rfl
    rqOrder := pairwise_cons_shiftIn (sampledTag_le _ _ _) h.tags_le_tailSample h.rqOrder
    seen := fun t ht => h.deqCount_le_tail.trans (h.tail_le_shifted t ht)
    wgrayDirty := fun hd => nomatch hd }

/-- R117, clause 4: the record accepted stands in its slot, which held no record not yet consumed. -/
theorem RingInv.stored_acceptRecord (d : Nat) (post : State) (i : Nat) (hD : s.g.deqCount ≤ i)
    (hE : i < s.g.enqCount + 1) :
    (acceptRecord d s post).slotContent (i % s.cfg.slots) = (s.g.accepted ++ [d])[i]? := by
  have hhead := h.head_le_deqCount
  have hroom := h.enqCount_lt_head_add
  rcases Nat.lt_succ_iff_lt_or_eq.mp hE with hlt | rfl
  · have hslot : i % s.cfg.slots ≠ s.w.wptrBin := fun heq => by
      have := mod_eq_of_near (N := s.cfg.slots) (by omega) (by omega) (heq.trans h.wptrBin)
      omega
    rw [acceptRecord_slotContent_other d s post hslot, h.stored i hD hlt,
      List.getElem?_append_left (by rw [h.accepted]; exact hlt)]
  · rw [← h.wptrBin, acceptRecord_slotContent_same, ← h.accepted, List.getElem?_concat_length]

/-- R93: an accepted enqueue. -/
theorem ring_acceptRecord (hf : s.wFull = false) (d : Nat) (a : Bool) :
    RingInv (acceptRecord d s (writeFrame a s)) (shiftIn s.headSample wt) rt :=
  have hseen := h.deqCount_le_tail.trans h.tail_le_enqCount
  have hnext : incPtr s.cfg s.w.wptrBin = (s.g.enqCount + 1) % s.cfg.slots := by rw [h.wptrBin, incPtr_mod]
  { ring_writeFrame h a with
    wptrBin := hnext
    wptrGray := congrArg gray hnext
    rqOrder := List.pairwise_cons.mpr
      ⟨fun t ht => (h.tags_le_enqCount t ht).trans (Nat.le_succ _), (List.pairwise_cons.mp h.rqOrder).2⟩
    room := fun t ht => by
      have hroom := h.room_of_not_full hf
      have hle := h.head_le_shifted t ht
      simp only [acceptRecord_g_enqCount, acceptRecord_cfg, writeFrame_cfg, Config.capacity]
      omega
    accepted := by simp [h.accepted]
    consumed := h.consumed.trans (List.take_append_of_le_length (h.accepted ▸ hseen)).symm
    stored := h.stored_acceptRecord d _
    wgrayDirty := fun _ => ⟨Nat.succ_pos _, h.wptrGray, h.tags_le_enqCount⟩ }

/-- R102, R126: an accepted dequeue. -/
theorem ring_consumeRecord (he : s.rEmpty = false) :
    RingInv (consumeRecord s (readFrame s)) wt (shiftIn s.tailSample rt) :=
  have hnext : incPtr s.cfg s.r.rptrBin = (s.g.deqCount + 1) % s.cfg.slots := by rw [h.rptrBin, incPtr_mod]
  { ring_readFrame h with
    rptrBin := hnext
    rptrGray := congrArg gray hnext
    wqOrder := List.pairwise_cons.mpr
      ⟨fun t ht => (h.tags_le_deqCount t ht).trans (Nat.le_succ _), (List.pairwise_cons.mp h.wqOrder).2⟩
    seen := fun t ht => (h.deqCount_lt_tail he).trans_le (h.tail_le_shifted t ht)
    consumed := by
      simp [h.consumed, List.take_add_one, h.accepted_deqCount he]
    stored := fun i hD hE => h.stored i (Nat.le_of_succ_le hD) hE
    rgrayDirty := fun _ => ⟨Nat.succ_pos _, h.rptrGray, h.tags_le_deqCount⟩ }

theorem ring_tick (m : Nat) : RingInv (tick m s (readFrame s)) wt (shiftIn s.tailSample rt) := by
  rcases tick_cases m s (readFrame s) with ⟨-, e⟩ | ⟨-, -, e⟩ | ⟨-, -, he, e⟩ | ⟨-, -, -, e⟩ <;> rw [e]
  · exact ring_readFrame h
  · exact { ring_readFrame h with }
  · exact { ring_consumeRecord h he with }
  · exact { ring_readFrame h with }

end Ring

/-- R150: after a reset assertion every tag and both counts are 0. -/
theorem ring_resetAll {s : State} (hwf : s.cfg.wf = true) :
    RingInv (resetAll s) (List.replicate s.cfg.syncStages 0) (List.replicate s.cfg.syncStages 0) :=
  have htags : ∀ t ∈ List.replicate s.cfg.syncStages 0, t = 0 := fun _ => List.eq_of_mem_replicate
  have hchain : List.replicate s.cfg.syncStages 0 = (List.replicate s.cfg.syncStages 0).map (tagGray s.cfg) := by
    rw [List.map_replicate, tagGray_zero]
  have horder : (0 :: List.replicate s.cfg.syncStages 0).Pairwise (· ≥ ·) :=
    List.pairwise_replicate (n := s.cfg.syncStages + 1).mpr (.inr le_rfl)
  { cfg := hwf
    wptrBin := (Nat.zero_mod _).symm
    rptrBin := (Nat.zero_mod _).symm
    wptrGray := (tagGray_zero _).symm
    rptrGray := (tagGray_zero _).symm
    wqLength := List.length_replicate
    rqLength := List.length_replicate
    wq := hchain
    rq := hchain
    wqOrder := horder
    rqOrder := horder
    seen := fun _ _ => Nat.zero_le _
    room := fun _ _ => Nat.zero_le _
    accepted := rfl
    consumed := rfl
    stored := fun _ _ hE => absurd hE (Nat.not_lt_zero _)
    wgrayDirty := fun hd => nomatch hd
    rgrayDirty := fun hd => nomatch hd }

/-! ### Every operation -/

theorem nextRt_released {i : Instr} {s : State} (hi : i.format = .re) (hh : s.rHeld = false) (rt : List Nat) :
    nextRt i s rt = shiftIn s.tailSample rt := if_pos ⟨hi, hh⟩

theorem nextRt_held {i : Instr} {s : State} (hh : s.rHeld = true) (rt : List Nat) : nextRt i s rt = rt := by
  simp [nextRt, hh]

theorem nextRt_other {i : Instr} (hi : i.format ≠ .re) (s : State) (rt : List Nat) : nextRt i s rt = rt := by
  simp [nextRt, hi]

theorem format_of_enqueue {i : Instr} {d : Nat} (hi : i = .wEnq d ∨ i = .wEnqArm d) : i.format = .we := by
  rcases hi with rfl | rfl <;> rfl

/-- R117: every operation but a reset assertion keeps the ring invariant; an edge that is not held shifts the tags of its
own domain's view by the tag it samples, and no other tag moves. -/
theorem exec_keeps_ring {i : Instr} {s t : State} {wt rt : List Nat} (h : RingInv s wt rt) (hs : exec i s = .next t)
    (hne : i ≠ .resetAssert) : RingInv t (nextWt i s wt) (nextRt i s rt) := by
  rcases exec_next_cases hs with ⟨hi, hh, rfl⟩ | ⟨hi, hh, -, rfl⟩ | ⟨d, hi, -, hf, rfl⟩ | ⟨d, hi, hh, -, rfl⟩ |
    ⟨hi, hh, rfl⟩ | ⟨m, rfl, hh, rfl⟩ | ⟨m, rfl, -, he, rfl⟩ | ⟨m, rfl, -, hh, -, rfl⟩ | ⟨m, rfl, -, -, hh, rfl⟩ |
    ⟨rfl, -⟩ | ⟨rfl, rfl⟩
  · simpa [nextWt, nextRt, hi, hh] using ring_withWRs h s.rstIn
  · simpa [nextWt, nextRt, hi, hh] using ring_writeFrame h (armLevel i)
  · simpa [nextWt, nextRt, format_of_enqueue hi, not_held_of_room hf] using ring_acceptRecord h hf d (armLevel i)
  · simpa [nextWt, nextRt, format_of_enqueue hi, hh] using ring_raise (ring_writeFrame h (armLevel i)) .overflow
  · simpa [nextWt, nextRt, hi, hh] using ring_withRRs h s.rstIn
  · simpa [nextWt, nextRt, Instr.format, hh] using ring_readFrame h
  · simpa [nextWt, nextRt, Instr.format, not_held_of_visible he] using ring_consumeRecord h he
  · simpa [nextWt, nextRt, Instr.format, hh] using ring_raise (ring_readFrame h) .underflow
  · simpa [nextWt, nextRt, Instr.format, hh] using ring_tick h m
  · exact absurd rfl hne
  · simpa [nextWt, nextRt, Instr.format] using ring_withRstIn h false

/-- R117: a reset assertion starts the ring anew, and every other operation keeps its invariant. -/
theorem exec_keeps_ringOk {i : Instr} {s t : State} (h : s.RingOk) (hs : exec i s = .next t) : t.RingOk := by
  obtain ⟨wt, rt, h⟩ := h
  by_cases hi : i = .resetAssert
  · subst hi
    obtain ⟨-, rfl⟩ := exec_next hs
    exact ⟨_, _, ring_resetAll h.cfg⟩
  · exact ⟨_, _, exec_keeps_ring h hs hi⟩

theorem ringOk_withEnv {s : State} (h : s.RingOk) (e : Environment) : ({ s with env := e } : State).RingOk := by
  obtain ⟨wt, rt, h⟩ := h
  exact ⟨wt, rt, ring_withEnv h e⟩

theorem run_keeps_ringOk {s t : State} {is : List Instr} (h : s.RingOk) (hr : Run s is t) : t.RingOk :=
  run_keeps (fun _ _ e _ hok => exec_keeps_ringOk (ringOk_withEnv hok e)) h hr

/-- R155: the launch state is what a reset assertion leaves of it. -/
theorem ringOk_launch {c : Config} (hc : c.wf = true) : (State.launch c).RingOk :=
  ⟨_, _, ring_resetAll (s := State.launch c) hc⟩

/-! ### FIFO order (R64) -/

theorem fifoOrder_of_ringOk {s : State} (h : s.RingOk) : s.FifoOrder := by
  obtain ⟨wt, rt, h⟩ := h
  rw [State.FifoOrder, h.consumed]
  exact List.take_prefix _ _

/-- Settles O49: the ring invariant, which every run keeps, says that the consumed trace is the first `deq_count` of the
accepted records. -/
theorem consumedIsPrefixOfAccepted : Obligations.ConsumedIsPrefixOfAccepted :=
  ⟨fun _ _ _ hc hr => fifoOrder_of_ringOk (run_keeps_ringOk (ringOk_launch hc) hr),
    fun _ _ _ hok hr => fifoOrder_of_ringOk (run_keeps_ringOk hok hr)⟩

/-! ### The record shown and the slots in view (R55, R63) -/

theorem bin_gray_eq_xor (n x : Nat) : bin n (gray x) = x ^^^ (x >>> n) := by
  induction n with
  | zero => simp [bin]
  | succ n ih =>
    have hshift : gray x >>> n = (x >>> n) ^^^ (x >>> (n + 1)) := by
      rw [gray, Nat.shiftRight_xor_distrib, ← Nat.shiftRight_add, Nat.add_comm 1 n]
    rw [bin, ih, hshift, Nat.xor_assoc, ← Nat.xor_assoc (x >>> n), Nat.xor_self, Nat.zero_xor]

/-- R106: `bin_A` undoes `gray_A`. -/
theorem bin_gray {n x : Nat} (h : x < 2 ^ n) : bin n (gray x) = x := by
  rw [bin_gray_eq_xor, Nat.shiftRight_eq_div_pow, Nat.div_eq_of_lt h, Nat.xor_zero]

theorem bin_tagGray (c : Config) (tag : Nat) : bin c.addrBits (tagGray c tag) = tag % c.slots :=
  bin_gray (Nat.mod_lt _ (slots_pos c))

/-- R99, R117: `r_level = T - D`. -/
theorem RingInv.rLevel_eq {s : State} {wt rt : List Nat} (h : RingInv s wt rt) :
    s.rLevel = rt.getLastD 0 - s.g.deqCount := by
  have hhead := h.head_le_deqCount
  have htail := h.tail_le_enqCount
  have hroom := h.enqCount_lt_head_add
  rw [State.rLevel, h.rView_eq, bin_tagGray, h.rptrBin, slotDiff_mod h.deqCount_le_tail (by omega)]

/-- R117: `cnt(rq[S])` is the last tag, `T`. -/
theorem RingInv.cntRq_eq {s : State} {wt rt : List Nat} (h : RingInv s wt rt) : s.cntRq = rt.getLastD 0 := by
  rw [State.cntRq, h.rLevel_eq, Nat.add_sub_cancel' h.deqCount_le_tail]

/-- R63: while `r_empty = 0` the two ports address different slots. -/
theorem RingInv.wptrBin_ne_rptrBin {s : State} {wt rt : List Nat} (h : RingInv s wt rt) (he : s.rEmpty = false) :
    s.w.wptrBin ≠ s.r.rptrBin := by
  have hvisible := h.deqCount_lt_tail he
  have hhead := h.head_le_deqCount
  have htail := h.tail_le_enqCount
  have hroom := h.enqCount_lt_head_add
  intro heq
  have := mod_eq_of_near (N := s.cfg.slots) (a := s.g.deqCount) (b := s.g.enqCount) (by omega) (by omega)
    (h.rptrBin ▸ h.wptrBin ▸ heq.symm)
  omega

/-- R63: each slot in the read domain's view holds the accepted record of its place. -/
theorem RingInv.slot_in_view {s : State} {wt rt : List Nat} (h : RingInv s wt rt) {k : Nat} (hk : k < s.rLevel) :
    ∃ v, s.slotContent ((s.r.rptrBin + k) % s.cfg.slots) = some v ∧ s.g.accepted[s.g.deqCount + k]? = some v := by
  rw [h.rLevel_eq] at hk
  have htail := h.tail_le_enqCount
  have hstored := h.stored (s.g.deqCount + k) (Nat.le_add_right _ _) (by omega)
  have hsome := List.getElem?_eq_getElem (l := s.g.accepted) (i := s.g.deqCount + k) (by rw [h.accepted]; omega)
  refine ⟨_, ?_, hsome⟩
  rw [h.rptrBin, Nat.mod_add_mod, hstored, hsome]

/-- Settles O48: both parts are read off the ring invariant, at the places `deq_count` and `deq_count + k`. -/
theorem readDataIsTheOldestRecord : Obligations.ReadDataIsTheOldestRecord := by
  rintro s ⟨wt, rt, h⟩
  exact ⟨fun he => ⟨h.accepted_deqCount he, h.wptrBin_ne_rptrBin he⟩, fun _ hk => h.slot_in_view hk⟩

/-! ### The arm stays behind the data (R66)

An arm moves one stage per R-edge, and so do the tags. When `EnableUpdate` sees an arm in the last stage, the same edge
shifts the tags once more: so it is enough that an arm in a stage is matched by a tag of at least `E` in that stage
*after* one more shift. -/

/-- An arm that has come to a stage is matched by a tag that counts the first `E` records. -/
def ArmCovered (E : Nat) (armed : Bool) (tag : Nat) : Prop := armed = true → E ≤ tag

/-- The least tag `SyncW2R` may sample, whatever the draw. -/
def State.leastTailSample (s : State) : Nat := sampledTag s.x.wgrayDirty true s.g.enqCount

/-- No arm, and so no `enable`, has overtaken the first `E` records. -/
structure ArmBehindData (E : Nat) (s : State) (rt : List Nat) : Prop where
  companion : s.cfg.hasRc = true
  accepted : E ≤ s.g.enqCount
  enabled : ArmCovered E s.r.enable (rt.getLastD 0)
  stages : List.Forall₂ (ArmCovered E) s.r.armS (shiftIn s.leastTailSample rt)

theorem ArmCovered.mono {E tag tag' : Nat} {armed : Bool} (h : ArmCovered E armed tag) (hle : tag ≤ tag') :
    ArmCovered E armed tag' := fun ha => (h ha).trans hle

theorem forall₂_shiftIn {α β : Type} {R : α → β → Prop} {a : α} {b : β} {l : List α} {l' : List β} (hab : R a b)
    (h : List.Forall₂ R l l') : List.Forall₂ R (shiftIn a l) (shiftIn b l') := by
  induction h generalizing a b with
  | nil => exact .nil
  | cons hhead _ ih => exact .cons hab (ih hhead)

theorem forall₂_getLastD {α β : Type} {R : α → β → Prop} {a : α} {b : β} {l : List α} {l' : List β} (hab : R a b)
    (h : List.Forall₂ R l l') : R (l.getLastD a) (l'.getLastD b) := by
  induction h generalizing a b with
  | nil => exact hab
  | cons hhead _ ih =>
    rw [List.getLastD_cons, List.getLastD_cons]
    exact ih hhead

/-- A later sample covers what an earlier one would. -/
theorem forall₂_armCovered_mono {E v v' : Nat} {arms : List Bool} {rt : List Nat} (hle : v ≤ v')
    (h : List.Forall₂ (ArmCovered E) arms (shiftIn v rt)) : List.Forall₂ (ArmCovered E) arms (shiftIn v' rt) := by
  cases rt with
  | nil => exact h
  | cons t rt =>
    obtain ⟨armed, arms, hhead, htail, rfl⟩ := List.forall₂_cons_right_iff.mp h
    exact .cons (hhead.mono hle) htail

/-- Arms that are all low are covered by any tags. -/
theorem forall₂_armCovered_of_low {E : Nat} {arms : List Bool} {tags : List Nat} (hlen : arms.length = tags.length)
    (hlow : ∀ b ∈ arms, b = false) : List.Forall₂ (ArmCovered E) arms tags :=
  List.forall₂_iff_zip.mpr ⟨hlen, fun hmem harmed =>
    nomatch (hlow _ (List.of_mem_zip hmem).1).symm.trans harmed⟩

theorem leastTailSample_le_tailSample (s : State) : s.leastTailSample ≤ s.tailSample := by
  rw [State.leastTailSample, State.tailSample]
  cases s.x.wgrayDirty <;> cases s.drawsOld .rq1 <;> simp [sampledTag]

theorem leastTailSample_le_enqCount (s : State) : s.leastTailSample ≤ s.g.enqCount := sampledTag_le _ _ _

theorem leastTailSample_acceptRecord (d : Nat) (pre post : State) :
    (acceptRecord d pre post).leastTailSample = pre.g.enqCount := by
  simp [State.leastTailSample, sampledTag]

theorem leastTailSample_readFrame (s : State) : (readFrame s).leastTailSample = s.g.enqCount := by
  simp [State.leastTailSample, sampledTag]

section Arm

variable {E : Nat} {s : State} {wt rt : List Nat}

theorem armBehind_acceptRecord (h : ArmBehindData E s rt) (d : Nat) (a : Bool) :
    ArmBehindData E (acceptRecord d s (writeFrame a s)) rt :=
  { h with
    accepted := h.accepted.trans (Nat.le_succ _)
    stages := by
      rw [leastTailSample_acceptRecord]
      exact forall₂_armCovered_mono (leastTailSample_le_enqCount s) h.stages }

/-- R111, R122, R123: at one edge the arms and the tags shift together, and `enable` takes the last arm from before it. -/
theorem armBehind_readFrame (hring : RingInv s wt rt) (h : ArmBehindData E s rt) :
    ArmBehindData E (readFrame s) (shiftIn s.tailSample rt) :=
  have hstages : List.Forall₂ (ArmCovered E) s.r.armS (shiftIn s.tailSample rt) :=
    forall₂_armCovered_mono (leastTailSample_le_tailSample s) h.stages
  { h with
    enabled := by
      by_cases harm : s.armView = true
      · exact fun _ => forall₂_getLastD (a := false) (b := 0) nofun hstages harm
      · have hlast : (shiftIn s.tailSample rt).getLastD 0 ∈ shiftIn s.tailSample rt :=
          getLastD_mem (ring_readFrame hring).rt_ne_nil 0
        have henable : (readFrame s).r.enable = s.r.enable := by simp [readFrame, harm]
        rw [henable]
        exact h.enabled.mono (hring.tail_le_shifted _ hlast)
    stages := by
      rw [leastTailSample_readFrame]
      simp only [readFrame, h.companion, if_true]
      exact forall₂_shiftIn (fun _ => h.accepted) hstages }

/-- R126: a tick on top of the frame shifts nothing more, and at most clears `enable`. -/
theorem armBehind_tick (hring : RingInv s wt rt) (h : ArmBehindData E s rt) (m : Nat) :
    ArmBehindData E (tick m s (readFrame s)) (shiftIn s.tailSample rt) := by
  have hframe := armBehind_readFrame hring h
  rcases tick_cases m s (readFrame s) with ⟨-, e⟩ | ⟨-, -, e⟩ | ⟨-, -, -, e⟩ | ⟨-, -, -, e⟩ <;> rw [e]
  · exact hframe
  · exact { hframe with }
  · exact { hframe with }
  · exact { hframe with enabled := nofun }

/-- R66: every operation but a reset assertion keeps the arm behind the data. -/
theorem exec_keeps_armBehind {i : Instr} {t : State} (hring : RingInv s wt rt) (h : ArmBehindData E s rt)
    (hs : exec i s = .next t) (hne : i ≠ .resetAssert) : ArmBehindData E t (nextRt i s rt) := by
  rcases exec_next_cases hs with ⟨hi, hh, rfl⟩ | ⟨hi, hh, -, rfl⟩ | ⟨d, hi, -, hf, rfl⟩ | ⟨d, hi, hh, -, rfl⟩ |
    ⟨hi, hh, rfl⟩ | ⟨m, rfl, hh, rfl⟩ | ⟨m, rfl, -, he, rfl⟩ | ⟨m, rfl, -, hh, -, rfl⟩ | ⟨m, rfl, -, -, hh, rfl⟩ |
    ⟨rfl, -⟩ | ⟨rfl, rfl⟩
  · rw [nextRt_other (by simp [hi])]; exact { h with }
  · rw [nextRt_other (by simp [hi])]; exact { h with }
  · rw [nextRt_other (by simp [format_of_enqueue hi])]; exact armBehind_acceptRecord h d _
  · rw [nextRt_other (by simp [format_of_enqueue hi])]; exact { h with }
  · rw [nextRt_held hh]; exact { h with }
  · rw [nextRt_released rfl hh]; exact armBehind_readFrame hring h
  · rw [nextRt_released rfl (not_held_of_visible he)]; exact { armBehind_readFrame hring h with }
  · rw [nextRt_released rfl hh]; exact { armBehind_readFrame hring h with }
  · rw [nextRt_released rfl hh]; exact armBehind_tick hring h m
  · exact absurd rfl hne
  · rw [nextRt_other (by simp [Instr.format])]; exact { h with }

end Arm

/-- The invariant of a run after the arm's edge: the ring and the arm, with one choice of tags. -/
def State.ArmBehindRing (E : Nat) (s : State) : Prop := ∃ wt rt, RingInv s wt rt ∧ ArmBehindData E s rt

theorem run_keeps_armBehindRing {E : Nat} {s t : State} {is : List Instr} (hn : NoReset is)
    (h : s.ArmBehindRing E) (hr : Run s is t) : t.ArmBehindRing E := by
  refine run_keeps_noReset (Inv := State.ArmBehindRing E) ?_ hn h hr
  rintro s t e i hi ⟨wt, rt, hring, harm⟩ hs
  have hring' := ring_withEnv hring e
  exact ⟨_, _, exec_keeps_ring hring' hs hi, exec_keeps_armBehind hring' { harm with } hs hi⟩

/-- R44: without the companion no W-edge writes `arm_q`. -/
theorem armQ_of_absent {i : Instr} {s t : State} (hrc : s.cfg.hasRc = false) (hi : i.format = .we)
    (hs : exec i s = .next t) : t.w.armQ = s.w.armQ := by
  have hframe : ∀ a, (writeFrame a s).w.armQ = s.w.armQ := fun a => by simp [writeFrame, hrc]
  rcases exec_next_cases hs with ⟨-, -, rfl⟩ | ⟨-, -, -, rfl⟩ | ⟨d, -, -, -, rfl⟩ | ⟨d, -, -, -, rfl⟩ | ⟨hre, -⟩ |
    ⟨m, rfl, -⟩ | ⟨m, rfl, -⟩ | ⟨m, rfl, -⟩ | ⟨m, rfl, -⟩ | ⟨rfl, -⟩ | ⟨rfl, -⟩
  · rfl
  · exact hframe _
  · exact hframe _
  · exact hframe _
  · cases hi.symm.trans hre
  all_goals cases hi

/-- `arm_q` rises only with the companion present. -/
theorem hasRc_of_armQ_raised {i : Instr} {s t : State} (hi : i.format = .we) (hs : exec i s = .next t)
    (hlow : s.w.armQ = false) (hraised : t.w.armQ = true) : t.cfg.hasRc = true := by
  rw [exec_cfg hs]
  by_contra habsent
  have hkept := armQ_of_absent (Bool.eq_false_iff.mpr habsent) hi hs
  exact nomatch hraised.symm.trans (hkept.trans hlow)

/-- Settles O53. At the edge that raises the arm no stage is armed yet and `enable` is low (R60), so the arm is behind
the data; and it stays behind. -/
theorem armNeverOvertakesTheData : Obligations.ArmNeverOvertakesTheData := by
  intro s₀ s₁ t e i is hok hdisabled hlow _ hunarmed hlen hi hs hraised hn hr henabled
  have hcfg : s₁.cfg = s₀.cfg := by simpa using exec_cfg hs
  obtain ⟨hwrite, -, -⟩ := eachDomainWritesOnlyItsOwn _ _ i hs
  obtain ⟨hread : s₁.r = s₀.r, -, -⟩ := hwrite hi
  obtain ⟨wt, rt, hring⟩ := exec_keeps_ringOk (ringOk_withEnv hok e) hs
  have hstart : ArmBehindData s₁.g.enqCount s₁ rt :=
    { companion := hasRc_of_armQ_raised hi hs hunarmed hraised
      accepted := le_rfl
      enabled := fun henable => nomatch (hread ▸ hdisabled).symm.trans henable
      stages := forall₂_armCovered_of_low
        (by rw [hread, hlen, shiftIn_length, hring.rqLength, hcfg]) (hread ▸ hlow) }
  obtain ⟨_, _, hring', hbehind⟩ := run_keeps_armBehindRing hn ⟨wt, rt, hring, hstart⟩ hr
  rw [hring'.cntRq_eq]
  exact hbehind.enabled henabled

end Sys2Proof.Machine

/-! The obligations of 30_encoding.md. Each format's map (R77, R78) is said once as a function of the word's fields
(`weInstr`, `reInstr`), and `decode` as that map with the tied fields tested after it; both round trips follow. A line
of the script runs `exec` of its operation, refusals included (`step_of_presents`), so that the pseudo-operations of R87
are followed operation by operation. -/

namespace Sys2Proof

/-! ### The maps of R77 and R78, from the fields of a word -/

/-- R77: the operation a WE word's `e` and `a` select. -/
def weInstr (e a : Bool) (d : Nat) : Instr :=
  match a, e with
  | false, false => .wNop d
  | false, true => .wEnq d
  | true, false => .wArm d
  | true, true => .wEnqArm d

/-- R78, R81: the operation an RE word's `e` and `t` select; both at once are reserved. -/
def reInstr (e t : Bool) (m : Nat) : Except DecodeError Instr :=
  match t, e with
  | false, false => .ok (.rNop m)
  | false, true => .ok (.rDeq m)
  | true, false => .ok (.rcTick m)
  | true, true => .error .twoConsumers

theorem decodeWe_eq (c : Config) (x : Nat) :
    decodeWe c x = weInstr (x.testBit c.dataBits) (x.testBit (c.dataBits + 1)) (operandField c.dataBits x) := rfl

theorem decodeRe_eq (c : Config) (x : Nat) :
    decodeRe c x = reInstr (x.testBit c.periodBits) (x.testBit (c.periodBits + 1)) (operandField c.periodBits x) := rfl

theorem decodeWe_word {c : Config} {d : Nat} (h : d < 2 ^ c.dataBits) (e a : Bool) :
    decodeWe c (word c.dataBits d e a) = weInstr e a d := by
  rw [decodeWe_eq, word_testBit_low h, word_testBit_high h, operandField_word h]

theorem decodeRe_word {c : Config} {m : Nat} (h : m < 2 ^ c.periodBits) (e t : Bool) :
    decodeRe c (word c.periodBits m e t) = reInstr e t m := by
  rw [decodeRe_eq, word_testBit_low h, word_testBit_high h, operandField_word h]

theorem encode_weInstr (c : Config) (e a : Bool) (d : Nat) :
    encode c (weInstr e a d) = ⟨.we, word c.dataBits d e a⟩ := by
  cases a <;> cases e <;> simp only [weInstr, encode_wNop, encode_wEnq, encode_wArm, encode_wEnqArm]

theorem encode_reInstr {e t : Bool} {m : Nat} {i : Instr} (h : reInstr e t m = .ok i) (c : Config) :
    encode c i = ⟨.re, word c.periodBits m e t⟩ := by
  cases t <;> cases e <;> cases h <;> simp only [encode_rNop, encode_rDeq, encode_rcTick]

theorem fitsFormat_weInstr (c : Config) (e a : Bool) (d : Nat) :
    (weInstr e a d).fitsFormat c = fits c.dataBits d := by
  cases a <;> cases e <;> rfl

theorem fitsFormat_reInstr {e t : Bool} {m : Nat} {i : Instr} (h : reInstr e t m = .ok i) (c : Config) :
    i.fitsFormat c = fits c.periodBits m := by
  cases t <;> cases e <;> cases h <;> rfl

/-- R82: of a WE word only `a` can be tied. -/
theorem portsPresent_weInstr (c : Config) (e a : Bool) (d : Nat) :
    (weInstr e a d).portsPresent c = (!a || c.hasRc) := by
  cases a <;> cases e <;> rfl

/-- R82: with the companion `e` of an RE word is tied, without it `t` and `m` are. -/
theorem portsPresent_reInstr {e t : Bool} {m : Nat} {i : Instr} (h : reInstr e t m = .ok i) (c : Config) :
    i.portsPresent c = if c.hasRc then !e else !t && m == 0 := by
  cases t <;> cases e <;> cases h <;> cases hrc : c.hasRc <;> simp [Instr.portsPresent, hrc]

theorem fits_operandField (width x : Nat) : fits width (operandField width x) = true :=
  decide_eq_true (Nat.mod_lt x (Nat.two_pow_pos width))

/-! ### The decoder -/

theorem decode_of_width {c : Config} {f : Format} {x : Nat} (hx : x < 2 ^ f.width c) :
    decode c f x = (decodeFields c f x).bind (requirePorts c) := by
  simp only [decode, fits, hx, decide_true, if_true]
  cases decodeFields c f x <;> rfl

theorem decode_too_wide {c : Config} {f : Format} {x : Nat} (hx : 2 ^ f.width c ≤ x) :
    decode c f x = .error .wordTooWide := by
  simp [decode, fits, hx]

theorem requirePorts_present {c : Config} {i : Instr} (h : i.portsPresent c = true) : requirePorts c i = .ok i :=
  if_pos h

theorem requirePorts_absent {c : Config} {i : Instr} (h : i.portsPresent c = false) :
    requirePorts c i = .error .absentPort := by
  simp [requirePorts, h]

theorem requirePorts_eq_ok {c : Config} {i j : Instr} (h : requirePorts c i = .ok j) :
    i.portsPresent c = true ∧ i = j := by
  unfold requirePorts at h
  split at h <;> cases h
  exact ⟨‹_›, rfl⟩

/-! ### Decoding an encoded operation -/

@[simp] theorem encode_fmt (c : Config) (i : Instr) : (encode c i).fmt = i.format := by cases i <;> rfl

theorem decode_weInstr {c : Config} {d : Nat} (h : d < 2 ^ c.dataBits) (e a : Bool) :
    decode c .we (encode c (weInstr e a d)).word = requirePorts c (weInstr e a d) := by
  rw [encode_weInstr, decode_of_width (word_lt h e a), decodeFields, decodeWe_word h]
  rfl

theorem decode_reInstr {c : Config} {m : Nat} {e t : Bool} {i : Instr} (h : m < 2 ^ c.periodBits)
    (hi : reInstr e t m = .ok i) : decode c .re (encode c i).word = requirePorts c i := by
  rw [encode_reInstr hi, decode_of_width (word_lt h e t), decodeFields, decodeRe_word h, hi]
  rfl

/-- The word of an operation whose operand fits its field decodes to that operation, if its ports exist. -/
theorem decode_encode {c : Config} {i : Instr} (h : i.fitsFormat c = true) :
    decode c i.format (encode c i).word = requirePorts c i := by
  cases i with
  | wNop d => exact decode_weInstr (of_decide_eq_true h) false false
  | wEnq d => exact decode_weInstr (of_decide_eq_true h) true false
  | wArm d => exact decode_weInstr (of_decide_eq_true h) false true
  | wEnqArm d => exact decode_weInstr (of_decide_eq_true h) true true
  | rNop m => exact decode_reInstr (e := false) (t := false) (of_decide_eq_true h) rfl
  | rDeq m => exact decode_reInstr (e := true) (t := false) (of_decide_eq_true h) rfl
  | rcTick m => exact decode_reInstr (e := false) (t := true) (of_decide_eq_true h) rfl
  | resetAssert => exact decode_of_width (f := .sy) (show 1 < 2 ^ 1 by decide)
  | resetDeassert => exact decode_of_width (f := .sy) (show 0 < 2 ^ 1 by decide)

/-- Settles O2: the operation's own ports are the ones `decode` asks for. -/
theorem decodeOfEncodeIsIdentity : Obligations.DecodeOfEncodeIsIdentity := by
  intro c i hwf
  simp only [Instr.wellFormed, Bool.and_eq_true] at hwf
  obtain ⟨hfits, hports⟩ := hwf
  rw [encode_fmt, decode_encode hfits, requirePorts_present hports]

/-! ### Encoding a decoded operation -/

/-- The operation a word's fields select fits the format, and has that word. -/
theorem encode_of_decodeFields {c : Config} {f : Format} {x : Nat} {i : Instr} (hx : x < 2 ^ f.width c)
    (h : decodeFields c f x = .ok i) : i.fitsFormat c = true ∧ encode c i = ⟨f, x⟩ := by
  cases f with
  | we =>
    obtain rfl : decodeWe c x = i := Except.ok.inj h
    rw [decodeWe_eq, fitsFormat_weInstr, encode_weInstr, ← eq_word hx]
    exact ⟨fits_operandField _ _, rfl⟩
  | re =>
    have hi : reInstr _ _ _ = .ok i := h
    rw [fitsFormat_reInstr hi, encode_reInstr hi, ← eq_word hx]
    exact ⟨fits_operandField _ _, rfl⟩
  | sy =>
    obtain rfl : decodeSy x = i := Except.ok.inj h
    obtain rfl | rfl : x = 0 ∨ x = 1 := by simp [Format.width] at hx; omega
    · exact ⟨rfl, rfl⟩
    · exact ⟨rfl, rfl⟩

/-- Settles O3: what decodes has the format's width, and its fields select the operation. -/
theorem encodeOfDecodeIsIdentity : Obligations.EncodeOfDecodeIsIdentity := by
  intro c f x i h
  by_cases hx : x < 2 ^ f.width c
  case neg => simp [decode_too_wide (not_lt.mp hx)] at h
  rw [decode_of_width hx] at h
  cases hfields : decodeFields c f x with
  | error r => simp [hfields, Except.bind] at h
  | ok j =>
    rw [hfields] at h
    obtain ⟨hports, rfl⟩ := requirePorts_eq_ok h
    obtain ⟨hfits, hword⟩ := encode_of_decodeFields hx hfields
    exact ⟨by simp [Instr.wellFormed, hfits, hports], hword⟩

/-- Settles O1, by evaluating the decoder on each word of the table. -/
theorem referenceWordsDecode : Obligations.ReferenceWordsDecode := by
  unfold Obligations.ReferenceWordsDecode
  decide

/-! ### Reserved and tied words (R81, R82) -/

/-- R81: the reserved combination, `t = e = 1` in an RE word. -/
def ReservedWord (c : Config) (f : Format) (x : Nat) : Prop :=
  f = .re ∧ x.testBit c.periodBits = true ∧ x.testBit (c.periodBits + 1) = true

/-- R82: a 1 in a field tied to 0, by whether the companion is there. -/
def TiedWord (c : Config) (f : Format) (x : Nat) : Prop :=
  (f = .we ∧ c.hasRc = false ∧ x.testBit (c.dataBits + 1) = true) ∨
  (f = .re ∧ c.hasRc = false ∧ (x.testBit (c.periodBits + 1) = true ∨ x % 2 ^ c.periodBits ≠ 0)) ∨
  (f = .re ∧ c.hasRc = true ∧ x.testBit c.periodBits = true)

theorem decodeFields_reserved {c : Config} {f : Format} {x : Nat} (h : ReservedWord c f x) :
    decodeFields c f x = .error .twoConsumers := by
  obtain ⟨rfl, he, ht⟩ := h
  rw [decodeFields, decodeRe_eq, he, ht]
  rfl

theorem reInstr_ok {e t : Bool} (h : ¬(e = true ∧ t = true)) (m : Nat) : ∃ i, reInstr e t m = .ok i := by
  cases t <;> cases e <;> simp_all [reInstr]

/-- Any other word selects an operation, whose ports exist just when no tied field carries a 1. -/
theorem decodeFields_not_reserved {c : Config} {f : Format} {x : Nat} (h : ¬ReservedWord c f x) :
    ∃ i, decodeFields c f x = .ok i ∧ (i.portsPresent c = true ↔ ¬TiedWord c f x) := by
  cases f with
  | we =>
    refine ⟨_, rfl, ?_⟩
    rw [decodeWe_eq, portsPresent_weInstr]
    cases hrc : c.hasRc <;> simp [TiedWord, hrc]
  | re =>
    obtain ⟨i, hi⟩ := reInstr_ok (fun hbits => h ⟨rfl, hbits⟩) (operandField c.periodBits x)
    refine ⟨i, hi, ?_⟩
    rw [portsPresent_reInstr hi]
    cases hrc : c.hasRc <;> simp [TiedWord, hrc, operandField]
  | sy =>
    refine ⟨_, rfl, ?_⟩
    cases hbit : x.testBit 0 <;> simp [decodeSy, hbit, Instr.portsPresent, TiedWord]

end Sys2Proof

namespace Sys2Proof.Machine

/-! ### Words at a step -/

/-- A sample line whose word does not decode is refused by the decoder's answer. -/
theorem runLine_of_decode_error {s : State} {f : Format} {x : Nat} {r : DecodeError} (h : decode s.cfg f x = .error r)
    (draws : Draws) : runLine (.sample f x draws) s = .refused (refusalOf r) := by
  simp [runLine, h]

theorem step_of_decode_error {s : State} {f : Format} {x : Nat} {draws : Draws} {rest : List Stimulus}
    {r : DecodeError} (hline : s.env.inputs = .line (.sample f x draws) :: rest) (h : decode s.cfg f x = .error r) :
    step s = .refused (refusalOf r) :=
  (step_line hline).trans (runLine_of_decode_error (s := s.loaded) h draws)

/-- Settles O4, by what the word's fields select (`decodeFields_reserved`, `decodeFields_not_reserved`); an operation
that decodes is well formed (O3), and so the step completes. -/
theorem reservedAndTiedWordsRefused : Obligations.ReservedAndTiedWordsRefused := by
  intro s f x draws rest hline hx
  change (ReservedWord s.cfg f x → _) ∧ (¬ReservedWord s.cfg f x → TiedWord s.cfg f x → _) ∧
    (¬ReservedWord s.cfg f x → ¬TiedWord s.cfg f x → _)
  have hdecode := decode_of_width hx
  refine ⟨fun hres => ?_, fun hres htied => ?_, fun hres hfree => ?_⟩
  · rw [decodeFields_reserved hres] at hdecode
    exact step_of_decode_error hline hdecode
  · obtain ⟨i, hi, hports⟩ := decodeFields_not_reserved hres
    have habsent : i.portsPresent s.cfg = false := Bool.eq_false_iff.mpr fun h => hports.mp h htied
    rw [hi] at hdecode
    exact step_of_decode_error hline (hdecode.trans (requirePorts_absent habsent))
  · obtain ⟨i, hi, hports⟩ := decodeFields_not_reserved hres
    rw [hi] at hdecode
    have hok : decode s.cfg f x = .ok i := hdecode.trans (requirePorts_present (hports.mpr hfree))
    obtain ⟨hwf, -⟩ := encodeOfDecodeIsIdentity _ _ _ _ hok
    exact ⟨i, _, hok, (stepRunsTheDecodedOperation s f x draws rest i hline hok).trans (exec_of_wellFormed hwf)⟩

/-! ### Ignored fields (R76) -/

/-- Two operations admitted alike that leave the same state are the same. -/
theorem exec_congr {i j : Instr} {s : State} (hfits : i.fitsFormat s.cfg = j.fitsFormat s.cfg)
    (hports : i.portsPresent s.cfg = j.portsPresent s.cfg) (hafter : after i s = after j s) : exec i s = exec j s := by
  simp only [exec_eq_perform, perform, hfits, hports, hafter]

/-- Settles O6: neither the ports nor `after` mention the field. -/
theorem ignoredFieldsHaveNoEffect : Obligations.IgnoredFieldsHaveNoEffect := by
  intro s v v'
  refine ⟨fun h h' => ?_, fun hrc h h' => ?_⟩
  · have hfits : fits s.cfg.dataBits v = fits s.cfg.dataBits v' := h.trans h'.symm
    exact ⟨exec_congr hfits rfl rfl, exec_congr hfits rfl rfl⟩
  · exact exec_congr (h.trans h'.symm) (by simp [Instr.portsPresent, hrc]) rfl

/-! ### A line of the script runs its operation (R86) -/

theorem exec_wide {i : Instr} {s : State} (h : i.fitsFormat s.cfg = false) : exec i s = .refused .wordTooWide := by
  rw [exec_eq_perform, perform, h]
  rfl

theorem exec_absent {i : Instr} {s : State} (hfits : i.fitsFormat s.cfg = true) (h : i.portsPresent s.cfg = false) :
    exec i s = .refused .absentPort := by
  rw [exec_eq_perform, perform, hfits, h]
  rfl

/-- The word a line presents for an operation runs that operation, and is refused as the operation is. -/
theorem runLine_lineOf (i : Instr) (draws : Draws) (s : State) : runLine (lineOf s.cfg i draws) s = exec i s := by
  cases hfits : i.fitsFormat s.cfg with
  | false =>
    have hword : lineWord s.cfg i = 2 ^ i.format.width s.cfg := by simp [lineWord, hfits]
    rw [exec_wide hfits]
    exact runLine_of_decode_error (decode_too_wide hword.ge) draws
  | true =>
    have hword : decode s.cfg i.format (lineWord s.cfg i) = requirePorts s.cfg i := by
      rw [lineWord, if_pos hfits, decode_encode hfits]
    cases hports : i.portsPresent s.cfg with
    | false =>
      rw [exec_absent hfits hports]
      exact runLine_of_decode_error (hword.trans (requirePorts_absent hports)) draws
    | true => exact runLine_of_decode (hword.trans (requirePorts_present hports)) draws

/-- The next line presents the operation `i` with no draw choice, and leaves the script `now`. -/
def State.Presents (s : State) (i : Instr) (now : List Stimulus) : Prop :=
  s.presented = (plainLine s.cfg i, now, s.env.producer)

/-- The state such a line is run in. -/
def State.advance (s : State) (now : List Stimulus) : State :=
  { s with env := {
    inputs := now, producer := s.env.producer, draws := Draws.allNew, drawIndex := s.env.drawIndex + 1 } }

theorem presents_line {s : State} {i : Instr} {rest : List Stimulus}
    (h : s.env.inputs = .line (plainLine s.cfg i) :: rest) : s.Presents i rest := presented_line h

theorem presents_pseudo {s : State} {p : Pseudo} {i : Instr} {now rest : List Stimulus}
    (h : s.env.inputs = .pseudo p :: rest) (hp : p.next s = some (plainLine s.cfg i, now)) :
    s.Presents i (now ++ rest) := by
  simp [State.Presents, State.presented, h, nextLine, hp]

theorem step_of_presents {s : State} {i : Instr} {now : List Stimulus} (h : s.Presents i now) :
    step s = exec i (s.advance now) := by
  have hloaded : s.loaded = s.advance now := by rw [State.loaded, h]; rfl
  rw [step, hloaded, h]
  exact runLine_lineOf i Draws.allNew (s.advance now)

theorem step_of_presents_wellFormed {s : State} {i : Instr} {now : List Stimulus} (h : s.Presents i now)
    (hwf : i.wellFormed s.cfg = true) : step s = .next (after i (s.advance now)) :=
  (step_of_presents h).trans (exec_of_wellFormed hwf)

/-! ### The operations of a script are well formed -/

theorem fits_zero (width : Nat) : fits width 0 = true := decide_eq_true (Nat.two_pow_pos width)

theorem wellFormed_idleOf (c : Config) (dom : Domain) : (idleOf dom).wellFormed c = true := by
  cases dom <;> simp [idleOf, Instr.wellFormed, Instr.fitsFormat, Instr.portsPresent, fits_zero]

theorem wellFormed_wEnq {c : Config} {v : Nat} (h : v < 2 ^ c.dataBits) : (Instr.wEnq v).wellFormed c = true := by
  simp [Instr.wellFormed, Instr.fitsFormat, Instr.portsPresent, fits, h]

theorem wellFormed_wArm_zero {c : Config} (h : c.hasRc = true) : (Instr.wArm 0).wellFormed c = true := by
  simp [Instr.wellFormed, Instr.fitsFormat, Instr.portsPresent, fits_zero, h]

theorem wellFormed_rDeq_zero {c : Config} (h : c.hasRc = false) : (Instr.rDeq 0).wellFormed c = true := by
  simp [Instr.wellFormed, Instr.fitsFormat, Instr.portsPresent, fits_zero, h]

/-! ### PUSH, PUSH_ARM and POP (R87) -/

/-- With the companion `PUSH_ARM` waits just while the ring is full. -/
theorem pushArmWaits_of_companion {s : State} (h : s.cfg.hasRc = true) : s.pushArmWaits = s.wFull := by
  simp [State.pushArmWaits, h]

section Push

variable {s : State} {v : Nat} {rest : List Stimulus} {arm : Bool}
  (hline : s.env.inputs = .pseudo (if arm then .pushArm v else .push v) :: rest)
  (hrc : arm = true → s.cfg.hasRc = true)
include hline hrc

theorem presents_push_full (hfull : s.wFull = true) :
    s.Presents (if arm then .wArm 0 else .wNop 0) s.env.inputs := by
  rw [hline]
  cases arm with
  | false => exact presents_pseudo hline (if_pos hfull)
  | true => exact presents_pseudo hline (if_pos ((pushArmWaits_of_companion (hrc rfl)).trans hfull))

theorem presents_push_room (hroom : s.wFull = false) : s.Presents (.wEnq v) rest := by
  cases arm with
  | false => exact presents_pseudo hline (if_neg (by simp [hroom]))
  | true => exact presents_pseudo hline (if_neg (by simp [pushArmWaits_of_companion (hrc rfl), hroom]))

theorem step_push_full (hfull : s.wFull = true) :
    step s = .next (wEdge arm noOperation (s.advance s.env.inputs)) := by
  have hpresents := presents_push_full hline hrc hfull
  cases arm with
  | false => exact step_of_presents_wellFormed hpresents (wellFormed_idleOf s.cfg .write)
  | true => exact step_of_presents_wellFormed hpresents (wellFormed_wArm_zero (hrc rfl))

theorem step_push_room (hroom : s.wFull = false) (hv : v < 2 ^ s.cfg.dataBits) :
    step s = .next (acceptRecord v (s.advance rest) (writeFrame false (s.advance rest))) := by
  have hroom' : (s.advance rest).wFull = false := hroom
  rw [step_of_presents_wellFormed (presents_push_room hline hrc hroom) (wellFormed_wEnq hv), after,
    wEdge_released (not_held_of_room hroom'), enqueue_room hroom']

theorem step_push_wide (hroom : s.wFull = false) (hv : 2 ^ s.cfg.dataBits ≤ v) : step s = .refused .wordTooWide := by
  have hwide : (Instr.wEnq v).fitsFormat s.cfg = false := decide_eq_false (not_lt.mpr hv)
  exact (step_of_presents (presents_push_room hline hrc hroom)).trans (exec_wide hwide)

end Push

/-- A W-edge with no operation raises nothing and accepts nothing; with the companion it samples the arm level. -/
theorem wEdge_noOperation (a : Bool) (s : State) :
    (wEdge a noOperation s).w.wOvf = s.w.wOvf ∧ (wEdge a noOperation s).g = s.g ∧
      (wEdge a noOperation s).env = s.env ∧
      (s.cfg.hasRc = true → s.wHeld = false → (wEdge a noOperation s).w.armQ = a) := by
  cases hh : s.wHeld with
  | true => rw [wEdge_held hh]; exact ⟨rfl, rfl, rfl, nofun⟩
  | false => rw [wEdge_released hh]; exact ⟨rfl, rfl, rfl, fun hrc _ => if_pos hrc⟩

/-- An R-edge with no operation raises nothing and consumes nothing. -/
theorem rEdge_noOperation (s : State) :
    (rEdge noOperation s).r.rUdf = s.r.rUdf ∧ (rEdge noOperation s).g = s.g ∧ (rEdge noOperation s).env = s.env := by
  cases hh : s.rHeld with
  | true => rw [rEdge_held hh]; exact ⟨rfl, rfl, rfl⟩
  | false => rw [rEdge_released hh]; exact ⟨rfl, rfl, rfl⟩

/-- Without the companion `PUSH_ARM` is refused, whatever the flag. -/
theorem step_pushArm_absent {s : State} {v : Nat} {rest : List Stimulus}
    (hline : s.env.inputs = .pseudo (.pushArm v) :: rest) (hrc : s.cfg.hasRc = false) :
    step s = .refused .absentPort := by
  have hnext : Pseudo.next s (.pushArm v) = some (plainLine s.cfg (.wArm 0), [.pseudo (.pushArm v)]) :=
    if_pos (by simp [State.pushArmWaits, hrc])
  have habsent : (Instr.wArm 0).portsPresent s.cfg = false := hrc
  exact (step_of_presents (presents_pseudo hline hnext)).trans (exec_absent (fits_zero _) habsent)

/-- R100: a record that is visible is shown whatever the environment. -/
theorem rData_of_visible {s : State} (h : s.rEmpty = false) : s.rData = s.slotRecord s.deqSlot := by
  simp [State.rData, h]

theorem step_pop_empty {s : State} {rest : List Stimulus} (hline : s.env.inputs = .pseudo .pop :: rest)
    (hempty : s.rEmpty = true) : step s = .next (rEdge noOperation (s.advance s.env.inputs)) := by
  have hpresents : s.Presents (.rNop 0) s.env.inputs := hline ▸ presents_pseudo hline (if_pos hempty)
  exact step_of_presents_wellFormed hpresents (wellFormed_idleOf s.cfg .read)

theorem step_pop_visible {s : State} {rest : List Stimulus} (hline : s.env.inputs = .pseudo .pop :: rest)
    (hrc : s.cfg.hasRc = false) (hvisible : s.rEmpty = false) :
    step s = .next (consumeRecord (s.advance rest) (readFrame (s.advance rest))) := by
  have hvisible' : (s.advance rest).rEmpty = false := hvisible
  have hpresents : s.Presents (.rDeq 0) rest := presents_pseudo hline (if_neg (by simp [hvisible]))
  rw [step_of_presents_wellFormed hpresents (wellFormed_rDeq_zero hrc),
    after, rEdge_released (not_held_of_visible hvisible'), dequeue_visible hvisible']

/-- Settles O58: each pseudo-operation's step, in both states of its flag, is known in full (`step_push_full`,
`step_push_room`, `step_pop_empty`, `step_pop_visible`). -/
theorem pushAndPopHonourTheFlags : Obligations.PushAndPopHonourTheFlags := by
  refine ⟨fun s v rest arm hline hrc => ⟨fun hfull => ?_, fun hroom hv => ?_, step_push_wide hline hrc⟩,
    fun s v rest => step_pushArm_absent, fun s rest hline hrc => ?_⟩
  · obtain ⟨hovf, hg, henv, harm⟩ := wEdge_noOperation arm (s.advance s.env.inputs)
    exact ⟨_, step_push_full hline hrc hfull, hovf, (congrArg Observation.accepted hg :),
      (congrArg Environment.inputs henv :), harm⟩
  · exact ⟨_, step_push_room hline hrc hroom hv, rfl, rfl, rfl⟩
  · cases hempty : s.rEmpty with
    | true =>
      obtain ⟨hudf, hg, henv⟩ := rEdge_noOperation (s.advance s.env.inputs)
      exact ⟨_, step_pop_empty hline hempty, hudf,
        fun _ => ⟨(congrArg Observation.consumed hg :), (congrArg Environment.inputs henv :)⟩, nofun⟩
    | false =>
      have hshown : (s.advance rest).rData = s.rData := (rData_of_visible hempty).symm ▸ rData_of_visible hempty
      refine ⟨_, step_pop_visible hline hrc hempty, rfl, nofun, fun _ => ⟨?_, rfl⟩⟩
      exact congrArg (fun record => s.g.consumed ++ [record]) hshown

/-! ### RESET (R87, R156)

Between the deassertion and the release every idle edge is a held one, so that it only moves its own domain's reset
synchroniser (`resetting`). -/

/-- R40, R152: a reset synchroniser `k` edges after the deassertion. -/
def releasingChain (n k : Nat) : List Bool := List.replicate k false ++ List.replicate (n - k) true

theorem releasingChain_self (n : Nat) : releasingChain n n = List.replicate n false := by simp [releasingChain]

theorem releasingChain_held {n k : Nat} (h : k < n) : (releasingChain n k).getLastD false = true := by
  obtain ⟨j, hones⟩ : ∃ j, n - k = j + 1 := Nat.exists_eq_succ_of_ne_zero (Nat.sub_ne_zero_of_lt h)
  rw [releasingChain, hones, List.replicate_succ', ← List.append_assoc, List.getLastD_concat]

theorem shiftIn_releasingChain {n k : Nat} (h : k < n) :
    shiftIn false (releasingChain n k) = releasingChain n (k + 1) := by
  obtain ⟨j, hones⟩ : ∃ j, n - k = j + 1 := Nat.exists_eq_succ_of_ne_zero (Nat.sub_ne_zero_of_lt h)
  have hfewer : n - (k + 1) = j := by omega
  have hne : releasingChain n k ≠ [] := by simp [releasingChain, hones]
  rw [shiftIn_eq_cons_dropLast false hne, releasingChain, releasingChain, hones, hfewer, List.replicate_succ',
    ← List.append_assoc, List.dropLast_concat, List.replicate_succ, List.cons_append]

/-- The state after a reset assertion at `s`, the deassertion, and then `k dom` idle edges of each domain. -/
def resetting (s : State) (k : Domain → Nat) (e : Environment) : State :=
  { resetAll s with
    w := { WriteDomain.afterReset s.cfg with wRs := releasingChain s.cfg.rstStages (k .write) }
    r := { ReadDomain.afterReset s.cfg with rRs := releasingChain s.cfg.rstStages (k .read) }
    rstIn := false
    env := e }

/-- One more edge of the domain `dom`. -/
def addEdge (k : Domain → Nat) (dom : Domain) : Domain → Nat := fun d => k d + if dom == d then 1 else 0

/-- The script's line of a domain's idle operation. -/
def idleLine (c : Config) (dom : Domain) : Stimulus := .line (plainLine c (idleOf dom))

section Resetting

variable {s : State} {k : Domain → Nat} {e : Environment} {rest : List Stimulus}

theorem resetting_write (hk : k .write < s.cfg.rstStages) (e' : Environment) :
    resetting s (addEdge k .write) e' =
      { resetting s k e with w.wRs := shiftIn false (releasingChain s.cfg.rstStages (k .write)), env := e' } := by
  rw [shiftIn_releasingChain hk]
  rfl

theorem resetting_read (hk : k .read < s.cfg.rstStages) (e' : Environment) :
    resetting s (addEdge k .read) e' =
      { resetting s k e with r.rRs := shiftIn false (releasingChain s.cfg.rstStages (k .read)), env := e' } := by
  rw [shiftIn_releasingChain hk]
  rfl

/-- An idle edge of a domain not yet released. -/
theorem step_resetting {dom : Domain} (he : e.inputs = idleLine s.cfg dom :: rest) (hk : k dom < s.cfg.rstStages) :
    ∃ e', e'.inputs = rest ∧ step (resetting s k e) = .next (resetting s (addEdge k dom) e') := by
  refine ⟨((resetting s k e).advance rest).env, rfl, ?_⟩
  rw [step_of_presents_wellFormed (presents_line he) (wellFormed_idleOf _ _)]
  cases dom with
  | write =>
    have hheld : ((resetting s k e).advance rest).wHeld = true := releasingChain_held hk
    rw [idleOf, after, wEdge_held hheld, resetting_write (e := e) hk]
    rfl
  | read =>
    have hheld : ((resetting s k e).advance rest).rHeld = true := releasingChain_held hk
    rw [idleOf, after, rEdge_held hheld, resetting_read (e := e) hk]
    rfl

theorem run_succ {s t : State} (h : step s = .next t) (n : Nat) : core.run (n + 1) s = core.run n t := by
  have hcore : core.step s = .next t := h
  simp only [Host.Core.run, hcore]

/-- Any idle edges, no more of a domain than its synchroniser still has stages to shift. -/
theorem run_resetting (doms : List Domain) (he : e.inputs = doms.map (idleLine s.cfg) ++ rest)
    (hk : ∀ d, k d + doms.count d ≤ s.cfg.rstStages) :
    ∃ e', e'.inputs = rest ∧
      core.run doms.length (resetting s k e) = .next (resetting s (fun d => k d + doms.count d) e') := by
  induction doms generalizing k e with
  | nil => exact ⟨e, he, rfl⟩
  | cons dom doms ih =>
    have hcount : ∀ d, k d + (dom :: doms).count d = addEdge k dom d + doms.count d := fun d => by
      rw [List.count_cons, addEdge, Nat.add_assoc, Nat.add_comm (doms.count d)]
    have hroom : k dom < s.cfg.rstStages := by
      have := hk dom
      rw [List.count_cons_self] at this
      omega
    obtain ⟨e₁, he₁, hstep⟩ := step_resetting (k := k) he hroom
    obtain ⟨e', he', hrun⟩ := ih he₁ fun d => hcount d ▸ hk d
    exact ⟨e', he', by rw [List.length_cons, run_succ hstep, hrun, funext hcount]⟩

/-- R87: the line `RESET` presents, and the lines it leaves. -/
theorem step_reset {order : List Domain} (hline : s.env.inputs = .pseudo (.reset order) :: rest) :
    ∃ e, e.inputs = .line (plainLine s.cfg .resetDeassert) ::
        ((interleave order s.cfg.rstStages s.cfg.rstStages).map (idleLine s.cfg) ++ rest) ∧
      step s = .next (resetAll { s with env := e }) :=
  ⟨_, rfl, step_of_presents_wellFormed (i := .resetAssert) (presents_pseudo hline rfl) rfl⟩

theorem step_deassert (he : e.inputs = .line (plainLine s.cfg .resetDeassert) :: rest) :
    ∃ e', e'.inputs = rest ∧ step (resetAll { s with env := e }) = .next (resetting s (fun _ => 0) e') :=
  ⟨((resetAll { s with env := e }).advance rest).env, rfl,
    step_of_presents_wellFormed (s := resetAll { s with env := e }) (i := .resetDeassert) (presents_line he) rfl⟩

end Resetting

/-- R87: `interleave` has the edges asked for, whatever the order. -/
theorem count_interleave (order : List Domain) (w r : Nat) :
    (interleave order w r).count .write = w ∧ (interleave order w r).count .read = r ∧
      (interleave order w r).length = w + r := by
  induction order, w, r using interleave.induct with
  | case1 w r => simp [interleave, List.count_replicate]
  | case2 order w r ih => simp [interleave, ih]; omega
  | case3 order r ih => simp [interleave, ih]
  | case4 order w r ih => simp [interleave, ih]; omega
  | case5 order w ih => simp [interleave, ih]

/-- Settles O59: the assertion, the deassertion, and then `SR` held edges of each domain, in the order `interleave`
gives. -/
theorem resetSequenceReleasesBothDomains : Obligations.ResetSequenceReleasesBothDomains := by
  intro s order rest _ hline
  obtain ⟨hwrite, hread, hlength⟩ := count_interleave order s.cfg.rstStages s.cfg.rstStages
  have hcount : ∀ d, 0 + (interleave order s.cfg.rstStages s.cfg.rstStages).count d = s.cfg.rstStages := by
    rintro (_ | _)
    · rw [hwrite, Nat.zero_add]
    · rw [hread, Nat.zero_add]
  obtain ⟨e₀, he₀, hassert⟩ := step_reset hline
  obtain ⟨e₁, he₁, hdeassert⟩ := step_deassert he₀
  obtain ⟨e, he, hrun⟩ := run_resetting (k := fun _ => 0) _ he₁ fun d => (hcount d).le
  have hsteps : 2 + 2 * s.cfg.rstStages = (interleave order s.cfg.rstStages s.cfg.rstStages).length + 1 + 1 := by omega
  refine ⟨resetting s (fun _ => s.cfg.rstStages) e, ?_, he, rfl, ?_, ?_, rfl, resetAll_slotContent s, rfl, rfl⟩
  · rw [hsteps, run_succ hassert, run_succ hdeassert, hrun, funext hcount]
  · rw [resetting, releasingChain_self]
  · rw [resetting, releasingChain_self]

end Sys2Proof.Machine

/-! The obligations of 40_write_port.md: the edges of the write port in each state of their flag, what `w_full` says over
the write view, and the capacity. While nothing is dequeued the ring invariant (R117) leaves the write view at 0, so that
`w_level` counts the accepted enqueues, and `w_full` is the one place at which the next enqueue is rejected. -/

namespace Sys2Proof.Machine

/-! ### An edge of the write port, by the state of its flag (R88, R93) -/

/-- R88: every operation of the write port at a held edge. -/
theorem after_write_held {i : Instr} {s : State} (hi : i.format = .we) (hh : s.wHeld = true) :
    after i s = { s with w.wRs := shiftIn s.rstIn s.w.wRs } := by
  cases i with
  | wNop _ | wEnq _ | wArm _ | wEnqArm _ => exact wEdge_held hh _ _
  | rNop _ | rDeq _ | rcTick _ | resetAssert | resetDeassert => cases hi

/-- R96: every operation of the read port at a held edge. -/
theorem after_read_held {i : Instr} {s : State} (hi : i.format = .re) (hh : s.rHeld = true) :
    after i s = { s with r.rRs := shiftIn s.rstIn s.r.rRs } := by
  cases i with
  | rNop _ | rDeq _ | rcTick _ => exact rEdge_held hh _
  | wNop _ | wEnq _ | wArm _ | wEnqArm _ | resetAssert | resetDeassert => cases hi

/-- Settles O17. -/
theorem heldEdgeOnlyShiftsReset : Obligations.HeldEdgeOnlyShiftsReset := fun _ _ hwf =>
  ⟨fun hi hh => (exec_of_wellFormed hwf).trans (congrArg _ (after_write_held hi hh)),
    fun hi hh => (exec_of_wellFormed hwf).trans (congrArg _ (after_read_held hi hh))⟩

theorem wellFormed_wNop {c : Config} {d : Nat} (h : d < 2 ^ c.dataBits) : (Instr.wNop d).wellFormed c = true := by
  simp [Instr.wellFormed, Instr.fitsFormat, Instr.portsPresent, fits, h]

theorem wellFormed_wArm {c : Config} {d : Nat} (h : d < 2 ^ c.dataBits) (hrc : c.hasRc = true) :
    (Instr.wArm d).wellFormed c = true := by
  simp [Instr.wellFormed, Instr.fitsFormat, Instr.portsPresent, fits, h, hrc]

theorem wellFormed_wEnqArm {c : Config} {d : Nat} (h : d < 2 ^ c.dataBits) (hrc : c.hasRc = true) :
    (Instr.wEnqArm d).wellFormed c = true := by
  simp [Instr.wellFormed, Instr.fitsFormat, Instr.portsPresent, fits, h, hrc]

/-- Settles O14: the operation step on top of the frame is empty. -/
theorem writeEdgeWithoutEnqueue : Obligations.WriteEdgeWithoutEnqueue := fun _ _ hd hh =>
  ⟨(exec_of_wellFormed (wellFormed_wNop hd)).trans (congrArg _ (wEdge_released hh false noOperation)),
    fun hrc => (exec_of_wellFormed (wellFormed_wArm hd hrc)).trans (congrArg _ (wEdge_released hh true noOperation))⟩

/-! ### Enqueues (R93, R121) -/

section Enqueue

variable {i : Instr} {d : Nat} {s : State} (hi : i = .wEnq d ∨ i = .wEnqArm d)
include hi

theorem after_enqueue : after i s = wEdge (armLevel i) (enqueue d) s := by
  rcases hi with rfl | rfl <;> rfl

theorem after_enqueue_room (hroom : s.wFull = false) : after i s = acceptRecord d s (writeFrame (armLevel i) s) := by
  rw [after_enqueue hi, wEdge_released (not_held_of_room hroom), enqueue_room hroom]

theorem after_enqueue_full (hh : s.wHeld = false) (hfull : s.wFull = true) :
    after i s = raise .overflow (writeFrame (armLevel i) s) := by
  rw [after_enqueue hi, wEdge_released hh, enqueue_full hfull]

end Enqueue

/-- R93, R121: an enqueue of `d` with the arm level `a`, the level 1 with the companion only. -/
theorem enqueue_with_armLevel {c : Config} {d : Nat} {a : Bool} {i : Instr} (hd : d < 2 ^ c.dataBits)
    (h : (a = false ∧ i = .wEnq d) ∨ (a = true ∧ c.hasRc = true ∧ i = .wEnqArm d)) :
    (i = .wEnq d ∨ i = .wEnqArm d) ∧ armLevel i = a ∧ i.wellFormed c = true := by
  rcases h with ⟨rfl, rfl⟩ | ⟨rfl, hrc, rfl⟩
  · exact ⟨.inl rfl, rfl, wellFormed_wEnq hd⟩
  · exact ⟨.inr rfl, rfl, wellFormed_wEnqArm hd hrc⟩

/-- Settles O15: `acceptRecord` on top of the frame. -/
theorem acceptedEnqueueStoresAndPublishes : Obligations.AcceptedEnqueueStoresAndPublishes := by
  intro s d a i hd hroom h
  obtain ⟨hi, rfl, hwf⟩ := enqueue_with_armLevel hd h
  exact (exec_of_wellFormed hwf).trans (congrArg _ (after_enqueue_room hi hroom))

/-- Settles O16: `raise .overflow` on top of the frame. -/
theorem rejectedEnqueueOverflows : Obligations.RejectedEnqueueOverflows := by
  intro s d a i hd hh hfull h
  obtain ⟨hi, rfl, hwf⟩ := enqueue_with_armLevel hd h
  exact (exec_of_wellFormed hwf).trans (congrArg _ (after_enqueue_full hi hh hfull))

/-! ### `w_full` over the write view (R89, R91) -/

theorem gray_xor (a b : Nat) : gray (a ^^^ b) = gray a ^^^ gray b := by
  simp only [gray, Nat.shiftRight_xor_distrib]
  ac_rfl

theorem gray_bin_eq_xor (n g : Nat) : gray (bin n g) = g ^^^ (g >>> n) := by
  induction n with
  | zero => simp [bin, gray]
  | succ n ih =>
    have hshift : gray (g >>> n) = (g >>> n) ^^^ (g >>> (n + 1)) := by rw [gray, ← Nat.shiftRight_add]
    rw [bin, gray_xor, ih, hshift, Nat.xor_assoc, ← Nat.xor_assoc (g >>> n), Nat.xor_self, Nat.zero_xor]

/-- R106: `gray_A` undoes `bin_A`. -/
theorem gray_bin {n g : Nat} (h : g < 2 ^ n) : gray (bin n g) = g := by
  rw [gray_bin_eq_xor, Nat.shiftRight_eq_div_pow, Nat.div_eq_of_lt h, Nat.xor_zero]

/-- R106: `gray_A(x) == g` iff `x == bin_A(g)`. -/
theorem gray_eq_iff {n x g : Nat} (hx : x < 2 ^ n) (hg : g < 2 ^ n) : gray x = g ↔ x = bin n g :=
  ⟨fun h => h ▸ (bin_gray hx).symm, fun h => h ▸ gray_bin hg⟩

/-- R91: a level is `N - 1` just where one more slot closes the ring. -/
theorem slotDiff_eq_pred_iff {c : Config} {a b : Nat} (ha : a < c.slots) (hb : b < c.slots) :
    slotDiff c a b = c.slots - 1 ↔ (a + 1) % c.slots = b := by
  have hnext : (a + 1) % c.slots = if a + 1 = c.slots then 0 else a + 1 := by
    split
    next h => rw [h, Nat.mod_self]
    next h => exact Nat.mod_eq_of_lt (by omega)
  rw [hnext, slotDiff]
  rcases Nat.lt_or_ge a b with hab | hab
  · rw [Nat.mod_eq_of_lt (by omega)]
    split <;> omega
  · rw [Nat.sub_add_comm hab, Nat.add_mod_right, Nat.mod_eq_of_lt (by omega)]
    split <;> omega

theorem wLevel_lt (s : State) : s.wLevel < s.cfg.slots := slotDiff_lt _ _ _

section WriteView

variable {s : State} (hview : s.wView < s.cfg.slots) (hh : s.wHeld = false)
include hview hh

theorem wFull_iff_next_eq_head : s.wFull = true ↔ (s.w.wptrBin + 1) % s.cfg.slots = bin s.cfg.addrBits s.wView := by
  rw [State.wFull, hh, Bool.false_or, beq_iff_eq, gray_eq_iff (incPtr_lt _ _) hview, incPtr_eq]

theorem wFull_iff_wLevel (hptr : s.w.wptrBin < s.cfg.slots) : s.wFull = true ↔ s.wLevel = s.cfg.slots - 1 := by
  rw [wFull_iff_next_eq_head hview hh, State.wLevel, slotDiff_eq_pred_iff hptr (bin_lt hview)]

end WriteView

/-- What holds of every stage of a chain holds of the last one. -/
theorem getLastD_of_forall {α : Type} {p : α → Prop} {l : List α} {d : α} (hd : p d) (h : ∀ a ∈ l, p a) :
    p (l.getLastD d) := by
  by_cases hl : l = []
  · rwa [hl]
  · exact h _ (getLastD_mem hl d)

theorem State.Wf.wView_lt {s : State} (h : s.Wf) : s.wView < s.cfg.slots :=
  getLastD_of_forall (p := (· < s.cfg.slots)) (slots_pos s.cfg) h.wq

/-- Settles O9. -/
theorem fullFlagMeaning : Obligations.FullFlagMeaning := fun s h =>
  ⟨full_of_held,
    fun hh => ⟨wFull_iff_next_eq_head h.wView_lt hh, wFull_iff_wLevel h.wView_lt hh h.wptrBin⟩, wLevel_lt s⟩

/-! ### A write domain released stays released (R152) -/

theorem wEdge_wRs {op : State → State → State} (h : ∀ pre post, (op pre post).w.wRs = post.w.wRs) (a : Bool)
    (s : State) : (wEdge a op s).w.wRs = shiftIn s.rstIn s.w.wRs := by
  cases hh : s.wHeld with
  | true => rw [wEdge_held hh]
  | false => rw [wEdge_released hh, h, writeFrame_wRs]

theorem enqueue_wRs (d : Nat) (pre post : State) : (enqueue d pre post).w.wRs = post.w.wRs := by
  cases hf : pre.wFull with
  | true => rw [enqueue_full hf, raise_overflow_w_wRs]
  | false => rw [enqueue_room hf, acceptRecord_w_wRs]

/-- R40: every W-edge shifts the reset synchroniser. -/
theorem after_write_wRs {i : Instr} (hi : i.format = .we) (s : State) :
    (after i s).w.wRs = shiftIn s.rstIn s.w.wRs := by
  cases i with
  | wNop _ | wArm _ => exact wEdge_wRs (fun _ _ => rfl) _ s
  | wEnq d | wEnqArm d => exact wEdge_wRs (enqueue_wRs d) _ s
  | rNop _ | rDeq _ | rcTick _ | resetAssert | resetDeassert => cases hi

theorem exec_keeps_writeReleased {i : Instr} {s t : State} (hne : i ≠ .resetAssert) (h : s.WriteReleased)
    (hs : exec i s = .next t) : t.WriteReleased := by
  obtain ⟨-, rfl⟩ := exec_next hs
  obtain ⟨hrst, hchain⟩ := h
  cases hi : i.format with
  | we =>
    obtain ⟨-, hrst', -⟩ := after_keeps_readSide hi s
    refine ⟨hrst'.trans hrst, fun b hb => ?_⟩
    rw [after_write_wRs hi] at hb
    exact (mem_shiftIn hb).elim (·.trans hrst) (hchain b)
  | re =>
    obtain ⟨hw, -, -, hrst', -⟩ := after_keeps_writeSide hi s
    exact ⟨hrst'.trans hrst, hw ▸ hchain⟩
  | sy =>
    cases i with
    | resetAssert => exact absurd rfl hne
    | resetDeassert => exact ⟨rfl, hchain⟩
    | wNop _ | wEnq _ | wArm _ | wEnqArm _ | rNop _ | rDeq _ | rcTick _ => cases hi

theorem not_held_of_writeReleased {s : State} (h : s.WriteReleased) : s.wHeld = false :=
  getLastD_of_forall (p := (· = false)) rfl h.2

theorem writeReleased_released (c : Config) : (State.released c).WriteReleased :=
  ⟨rfl, fun _ => List.eq_of_mem_replicate⟩

theorem ringOk_released {c : Config} (hc : c.wf = true) : (State.released c).RingOk := by
  obtain ⟨wt, rt, h⟩ := ringOk_launch hc
  exact ⟨wt, rt, { h with }⟩

theorem run_cfg {s t : State} {is : List Instr} (h : Run s is t) : t.cfg = s.cfg :=
  run_keeps (Inv := fun t => t.cfg = s.cfg) (fun _ _ _ _ hc hs => (exec_cfg hs).trans hc) rfl h

theorem run_keeps_writeReleased {s t : State} {is : List Instr} (hn : NoReset is) (h : s.WriteReleased)
    (hr : Run s is t) : t.WriteReleased :=
  run_keeps_noReset (Inv := State.WriteReleased)
    (fun s _ e _ hne h hs => exec_keeps_writeReleased (s := { s with env := e }) hne h hs) hn h hr

/-! ### What the ring invariant says of the write port (R91, R94, R117) -/

section WriteLevel

variable {s : State} {wt rt : List Nat} (h : RingInv s wt rt)
include h

theorem RingInv.wView_lt : s.wView < s.cfg.slots := h.wView_eq ▸ tag_lt _ _

theorem RingInv.wptrBin_lt : s.w.wptrBin < s.cfg.slots := h.wptrBin ▸ Nat.mod_lt _ (slots_pos _)

/-- R91, R117: `w_level = E - H`. -/
theorem RingInv.wLevel_eq : s.wLevel = s.g.enqCount - wt.getLastD 0 := by
  have hhead := h.head_le_deqCount
  have hseen := h.deqCount_le_tail
  have htail := h.tail_le_enqCount
  rw [State.wLevel, h.wView_eq, bin_tagGray, h.wptrBin, slotDiff_mod (by omega) h.enqCount_lt_head_add]

/-- R7: no more than `N - 1` records are held at once. -/
theorem RingInv.held_le_capacity : s.g.enqCount - s.g.deqCount ≤ s.cfg.slots - 1 := by
  have hhead := h.head_le_deqCount
  have hroom := h.enqCount_lt_head_add
  omega

section NoDequeue

variable (hdeq : s.g.deqCount = 0)
include hdeq

theorem RingInv.head_of_no_dequeue : wt.getLastD 0 = 0 := by
  have hhead := h.head_le_deqCount
  omega

theorem RingInv.wView_of_no_dequeue : s.wView = 0 := by
  rw [h.wView_eq, h.head_of_no_dequeue hdeq, tagGray_zero]

theorem RingInv.wLevel_of_no_dequeue : s.wLevel = s.g.enqCount := by
  rw [h.wLevel_eq, h.head_of_no_dequeue hdeq, Nat.sub_zero]

/-- R94: `w_full = 1` just when `N - 1` enqueues were accepted. -/
theorem RingInv.wFull_iff_of_no_dequeue (hh : s.wHeld = false) :
    s.wFull = true ↔ s.g.enqCount = s.cfg.slots - 1 := by
  rw [wFull_iff_wLevel h.wView_lt hh h.wptrBin_lt, h.wLevel_of_no_dequeue hdeq]

end NoDequeue

end WriteLevel

/-! ### The capacity (R94) -/

theorem enqueue_of_requestsEnqueue {i : Instr} (h : requestsEnqueue i = true) : ∃ d, i = .wEnq d ∨ i = .wEnqArm d := by
  cases i with
  | wEnq d => exact ⟨d, .inl rfl⟩
  | wEnqArm d => exact ⟨d, .inr rfl⟩
  | wNop _ | wArm _ | rNop _ | rDeq _ | rcTick _ | resetAssert | resetDeassert => cases h

/-- R94: below the capacity the next enqueue is accepted, and at it the next one overflows. -/
theorem next_enqueue {s : State} {i : Instr} (hh : s.wHeld = false)
    (hfull : s.wFull = true ↔ s.g.enqCount = s.cfg.slots - 1) (hreq : requestsEnqueue i = true)
    (hwf : i.wellFormed s.cfg = true) :
    ∃ t, exec i s = .next t ∧
      (s.g.enqCount < s.cfg.slots - 1 → t.g.enqCount = s.g.enqCount + 1 ∧ t.w.wOvf = s.w.wOvf) ∧
      (s.g.enqCount = s.cfg.slots - 1 → t.g.accepted = s.g.accepted ∧ t.w.wOvf = true) := by
  obtain ⟨d, hi⟩ := enqueue_of_requestsEnqueue hreq
  refine ⟨after i s, exec_of_wellFormed hwf, fun hlt => ?_, fun heq => ?_⟩
  · have hroom : s.wFull = false := Bool.eq_false_iff.mpr fun hf => hlt.ne (hfull.mp hf)
    rw [after_enqueue_room hi hroom]
    exact ⟨rfl, rfl⟩
  · rw [after_enqueue_full hi hh (hfull.mpr heq)]
    exact ⟨rfl, rfl⟩

/-- What every run without a reset assertion keeps of the released reset state. -/
theorem run_released {c : Config} {is : List Instr} {t : State} (hc : c.wf = true) (hn : NoReset is)
    (hr : Run (State.released c) is t) : t.cfg = c ∧ t.wHeld = false ∧ t.RingOk :=
  ⟨run_cfg hr, not_held_of_writeReleased (run_keeps_writeReleased hn (writeReleased_released c) hr),
    run_keeps_ringOk (ringOk_released hc) hr⟩

/-- An environment that draws every new value and presents nothing. -/
def newDraws : Environment :=
  { inputs := [], producer := Producer.afterReset, draws := Draws.allNew, drawIndex := 0 }

theorem noReset_enqueues (records : List Nat) : NoReset (records.map .wEnq) := by
  simp [NoReset]

/-- R94: `N - 1` enqueues in a row are all accepted. -/
theorem run_enqueues {c : Config} {records : List Nat} (hc : c.wf = true) (hd : ∀ d ∈ records, d < 2 ^ c.dataBits)
    (hlen : records.length ≤ c.slots - 1) :
    ∃ t, Run (State.released c) (records.map .wEnq) t ∧ t.g.accepted = records ∧ t.g.deqCount = 0 ∧
      t.w.wOvf = false := by
  induction records using List.reverseRecOn with
  | nil => exact ⟨_, .done _, rfl, rfl, rfl⟩
  | append_singleton records d ih =>
    rw [List.length_append, List.length_singleton] at hlen
    obtain ⟨t, hr, hacc, hdeq, hovf⟩ := ih (fun d' h => hd d' (by simp [h])) (by omega)
    obtain ⟨rfl, hh, wt, rt, hring⟩ := run_released hc (noReset_enqueues records) hr
    have hroom : t.wFull = false := by
      rw [Bool.eq_false_iff, ne_eq, hring.wFull_iff_of_no_dequeue hdeq hh, ← hring.accepted, hacc]
      omega
    have hlast : exec (.wEnq d) { t with env := newDraws } = .next (after (.wEnq d) { t with env := newDraws }) :=
      exec_of_wellFormed (wellFormed_wEnq (hd d (by simp)))
    rw [after_enqueue_room (.inl rfl) (s := { t with env := newDraws }) hroom] at hlast
    rw [List.map_append]
    exact ⟨_, hr.trans (.more newDraws hlast (.done _)), congrArg (· ++ [d]) hacc, hdeq, hovf⟩

/-- The state a run in the environment `newDraws` leaves. -/
def runNew : State → List Instr → State
  | s, [] => s
  | s, i :: is => runNew (after i { s with env := newDraws }) is

theorem run_of_runNew {s : State} {is : List Instr} (h : ∀ i ∈ is, i.wellFormed s.cfg = true) :
    Run s is (runNew s is) := by
  induction is generalizing s with
  | nil => exact .done s
  | cons i is ih =>
    have hfirst : exec i { s with env := newDraws } = .next (after i { s with env := newDraws }) :=
      exec_of_wellFormed (h i (by simp))
    exact .more newDraws hfirst (ih fun j hj => (exec_cfg hfirst).symm ▸ h j (by simp [hj]))

/-- Two records through a ring of two slots: the second is offered once the first one's release is seen. -/
def twoThroughTwoSlots : List Instr := [.wEnq 0, .rNop 0, .rNop 0, .rDeq 0, .wNop 0, .wNop 0, .wEnq 1]

/-- Settles O12: the ring invariant with `H = 0`, and for the total above the capacity the run `twoThroughTwoSlots`. -/
theorem capacityIsSlotsMinusOne : Obligations.CapacityIsSlotsMinusOne := by
  refine ⟨fun c is t hc hn hr hdeq => ?_, fun c records hc hd hlen => ?_,
    ⟨twoThroughTwoSlots, _, run_of_runNew (by decide), by simp [NoReset, twoThroughTwoSlots], by decide⟩,
    fun s ⟨wt, rt, h⟩ => h.held_le_capacity⟩
  · obtain ⟨rfl, hh, wt, rt, h⟩ := run_released hc hn hr
    have hfull := h.wFull_iff_of_no_dequeue hdeq hh
    have hcap : t.g.enqCount ≤ t.cfg.slots - 1 := by simpa [hdeq] using h.held_le_capacity
    exact ⟨h.wView_of_no_dequeue hdeq, h.wLevel_of_no_dequeue hdeq, hcap, hfull,
      fun i e hreq hwf => next_enqueue (s := { t with env := e }) hh hfull hreq hwf⟩
  · obtain ⟨t, hr, hacc, -, hovf⟩ := run_enqueues hc hd hlen
    exact ⟨t, hr, hacc, hovf⟩

end Sys2Proof.Machine

/-! The obligations of 41_read_port.md: the edges of the read port in each state of its flag, and what `r_empty` says
over the read view. -/

namespace Sys2Proof.Machine

/-! ### `r_empty` over the read view (R97, R99) -/

/-- R97: a held read domain shows itself empty. -/
theorem empty_of_held {s : State} (h : s.rHeld = true) : s.rEmpty = true := by
  simp [State.rEmpty, h]

/-- R99: a level is 0 just where the two slots are the same. -/
theorem slotDiff_eq_zero_iff {c : Config} {a b : Nat} (ha : a < c.slots) (hb : b < c.slots) :
    slotDiff c a b = 0 ↔ a = b := by
  rw [slotDiff]
  rcases Nat.lt_or_ge a b with hab | hab
  · rw [Nat.mod_eq_of_lt (by omega)]
    omega
  · rw [Nat.sub_add_comm hab, Nat.add_mod_right, Nat.mod_eq_of_lt (by omega)]
    omega

theorem rLevel_lt (s : State) : s.rLevel < s.cfg.slots := slotDiff_lt _ _ _

theorem State.Wf.rView_lt {s : State} (h : s.Wf) : s.rView < s.cfg.slots :=
  getLastD_of_forall (p := (· < s.cfg.slots)) (slots_pos s.cfg) h.rq

section ReadView

variable {s : State} (hview : s.rView < s.cfg.slots) (hptr : s.r.rptrBin < s.cfg.slots)
include hview hptr

theorem rEmpty_iff_head_eq_tail (hgray : s.r.rptrGray = gray s.r.rptrBin) (hh : s.rHeld = false) :
    s.rEmpty = true ↔ s.r.rptrBin = bin s.cfg.addrBits s.rView := by
  rw [State.rEmpty, hh, Bool.false_or, beq_iff_eq, hgray, gray_eq_iff hptr hview]

theorem rLevel_eq_zero_iff : s.rLevel = 0 ↔ s.r.rptrBin = bin s.cfg.addrBits s.rView := by
  rw [State.rLevel, slotDiff_eq_zero_iff (bin_lt hview) hptr, eq_comm]

end ReadView

/-- Settles O10: the flag and the level both say that head and tail, as the read domain sees them, coincide. -/
theorem emptyFlagMeaning : Obligations.EmptyFlagMeaning := by
  intro s h hgray
  refine ⟨empty_of_held, fun hh => ?_, rLevel_lt s⟩
  have hflag := rEmpty_iff_head_eq_tail h.rView_lt h.rptrBin hgray hh
  exact ⟨hflag, hflag.trans (rLevel_eq_zero_iff h.rView_lt h.rptrBin).symm⟩

/-! ### An edge of the read port, by the state of its flag (R96, R101, R102) -/

theorem after_rNop_released {s : State} (hh : s.rHeld = false) (m : Nat) : after (.rNop m) s = readFrame s :=
  rEdge_released hh noOperation

theorem after_rDeq_visible {s : State} (he : s.rEmpty = false) (m : Nat) :
    after (.rDeq m) s = consumeRecord s (readFrame s) := by
  rw [after, rEdge_released (not_held_of_visible he), dequeue_visible he]

theorem after_rDeq_empty {s : State} (hh : s.rHeld = false) (he : s.rEmpty = true) (m : Nat) :
    after (.rDeq m) s = raise .underflow (readFrame s) := by
  rw [after, rEdge_released hh, dequeue_empty he]

/-- R57, R100: a visible record is the one the slot at `rptr_bin` is specified to hold. -/
theorem rData_of_content {s : State} {v : Nat} (he : s.rEmpty = false) (hv : s.slotContent s.r.rptrBin = some v) :
    s.rData = v :=
  (rData_of_visible he).trans (slotRecord_of_content hv)

/-- Settles O18: the operation step on top of the frame is empty. -/
theorem readEdgeWithoutOperation : Obligations.ReadEdgeWithoutOperation := fun _ m hwf hh =>
  (exec_of_wellFormed hwf).trans (congrArg _ (after_rNop_released hh m))

/-- Settles O19: `consumeRecord` on top of the frame. -/
theorem acceptedDequeueConsumes : Obligations.AcceptedDequeueConsumes := fun _ hrc he =>
  ⟨(exec_of_wellFormed (wellFormed_rDeq_zero hrc)).trans (congrArg _ (after_rDeq_visible he 0)),
    fun _ => rData_of_content he⟩

/-- Settles O20: `raise .underflow` on top of the frame. -/
theorem rejectedDequeueUnderflows : Obligations.RejectedDequeueUnderflows := fun _ hrc hh he =>
  (exec_of_wellFormed (wellFormed_rDeq_zero hrc)).trans (congrArg _ (after_rDeq_empty hh he 0))

end Sys2Proof.Machine

/-! The obligations of 42_pointer_sync.md: the gray code, what a first stage captures, the published pointers, and the ring
invariant with the views over it. What crosses between the domains is said once for both directions, as a `Source` with
its chain of stages. -/

namespace Sys2Proof.Machine

/-! ### The ring invariant (R114, R115, R117) -/

/-- Settles O45: every operation keeps the ring invariant, whatever the environment. -/
theorem ringInvariantIsKept : Obligations.RingInvariantIsKept := fun _ _ =>
  step_keeps fun _ _ e _ hok => exec_keeps_ringOk (ringOk_withEnv hok e)

/-- R91, R117: `w_full = 1` is `E - H = N - 1`. -/
theorem RingInv.wFull_iff_room {s : State} {wt rt : List Nat} (h : RingInv s wt rt) (hh : s.wHeld = false) :
    s.wFull = true ↔ s.g.enqCount - wt.getLastD 0 = s.cfg.slots - 1 := by
  rw [wFull_iff_wLevel h.wView_lt hh h.wptrBin_lt, h.wLevel_eq]

/-- R98, R117: `r_empty = 0` is `D < T`. -/
theorem RingInv.visible_iff {s : State} {wt rt : List Nat} (h : RingInv s wt rt) (hh : s.rHeld = false) :
    s.rEmpty = false ↔ s.g.deqCount < rt.getLastD 0 := by
  have hptr : s.r.rptrBin < s.cfg.slots := h.rptrBin ▸ Nat.mod_lt _ (slots_pos _)
  have hview : s.rView < s.cfg.slots := h.rView_eq ▸ tag_lt _ _
  have hgray : s.r.rptrGray = gray s.r.rptrBin := h.rptrGray.trans (congrArg gray h.rptrBin.symm)
  rw [← Bool.not_eq_true, rEmpty_iff_head_eq_tail hview hptr hgray hh, ← rLevel_eq_zero_iff hview hptr, h.rLevel_eq]
  omega

/-- Settles O47: the tags of the invariant stand in the order `H <= D <= T <= E < H + N`. -/
theorem flagsErrOnlyOnTheSafeSide : Obligations.FlagsErrOnlyOnTheSafeSide := by
  intro s wt rt h
  have hHD := h.head_le_deqCount
  have hDT := h.deqCount_le_tail
  have hTE := h.tail_le_enqCount
  refine ⟨h.wLevel_eq, h.rLevel_eq, ?_, ?_, h.wFull_iff_room, h.visible_iff, fun hf => ?_, fun he => ?_⟩
  · rw [h.wLevel_eq]
    omega
  · rw [h.rLevel_eq]
    omega
  · have hroom := h.room_of_not_full hf
    omega
  · exact (h.deqCount_lt_tail he).trans_le hTE

/-! ### The gray code (R106, R107) -/

/-- R106: the recursion of `bin` on bits. -/
theorem bin_testBit {A g : Nat} (h : g < 2 ^ A) (i : Nat) :
    (bin A g).testBit i = ((bin A g).testBit (i + 1) ^^ g.testBit i) := by
  have hbit : g.testBit i = ((bin A g).testBit i ^^ (bin A g).testBit (i + 1)) := by
    rw [← gray_testBit, gray_bin h]
  rw [hbit, Bool.xor_comm, Bool.xor_assoc, Bool.xor_self, Bool.xor_false]

/-- Settles O7: `gray` undoes `bin` and `bin` undoes `gray`, and bit `A` of an `A`-bit value is 0. -/
theorem grayAndBinAreInverse : Obligations.GrayAndBinAreInverse := by
  intro A g hA hg
  have hbin : bin A g < 2 ^ A := bin_lt hg
  refine ⟨hbin, ?_, fun i _ => bin_testBit hg i, fun x hx => ⟨gray_lt hx, gray_eq_iff hx hg⟩⟩
  rw [bin_testBit hg, Nat.sub_add_cancel hA, Nat.testBit_lt_two_pow hbin, Bool.false_xor]

theorem gray_two_pow_sub_one (k : Nat) : gray (2 ^ (k + 1) - 1) = 2 ^ k := by
  refine Nat.eq_of_testBit_eq fun i => ?_
  rw [gray_testBit, Nat.testBit_two_pow_sub_one, Nat.testBit_two_pow_sub_one, Nat.testBit_two_pow]
  rcases Nat.lt_trichotomy i k with hlt | rfl | hgt
  · simp [hlt, hlt.ne', hlt.trans (Nat.lt_succ_self k)]
  · simp
  · simp [hgt.ne, hgt.not_gt, Nat.not_lt.mpr hgt]

/-- A number and the next one differ in a block of low bits. -/
theorem exists_xor_succ (b : Nat) : ∃ k, b ^^^ (b + 1) = 2 ^ (k + 1) - 1 := by
  induction b using Nat.binaryRec' with
  | zero => exact ⟨0, rfl⟩
  | bit odd b _ ih =>
    cases odd with
    | false =>
      have hnext : Nat.bit false b + 1 = Nat.bit true b := rfl
      exact ⟨0, by rw [hnext, Nat.xor_bit, Nat.xor_self]; rfl⟩
    | true =>
      obtain ⟨k, hk⟩ := ih
      have hnext : Nat.bit true b + 1 = Nat.bit false (b + 1) := by simp [Nat.bit]; omega
      have hpos := Nat.two_pow_pos (k + 1)
      refine ⟨k + 1, ?_⟩
      rw [hnext, Nat.xor_bit, hk, pow_succ 2 (k + 1)]
      simp [Nat.bit]
      omega

/-- The same of two cyclically consecutive values of `A` bits. -/
theorem exists_xor_next {A b : Nat} (hA : 1 ≤ A) (hb : b < 2 ^ A) :
    ∃ k < A, b ^^^ ((b + 1) % 2 ^ A) = 2 ^ (k + 1) - 1 := by
  by_cases hwrap : b + 1 = 2 ^ A
  · refine ⟨A - 1, by omega, ?_⟩
    rw [hwrap, Nat.mod_self, Nat.xor_zero, Nat.sub_add_cancel hA, ← hwrap, Nat.add_sub_cancel]
  · have hlt : b + 1 < 2 ^ A := by omega
    obtain ⟨k, hk⟩ := exists_xor_succ b
    have hxor : 2 ^ (k + 1) - 1 < 2 ^ A := hk ▸ Nat.xor_lt_two_pow hb hlt
    have hle : 2 ^ (k + 1) ≤ 2 ^ A := by omega
    exact ⟨k, (Nat.pow_le_pow_iff_right (by decide)).mp hle, by rw [Nat.mod_eq_of_lt hlt, hk]⟩

theorem gray_next_changes_one_bit {A b : Nat} (hA : 1 ≤ A) (hb : b < 2 ^ A) :
    ∃ k < A, gray b ^^^ gray ((b + 1) % 2 ^ A) = 2 ^ k := by
  obtain ⟨k, hkA, hk⟩ := exists_xor_next hA hb
  exact ⟨k, hkA, by rw [← gray_xor, hk, gray_two_pow_sub_one]⟩

/-- Settles O8: consecutive values differ in a block of low bits, whose gray code is its top bit. -/
theorem grayChangesOneBitCyclically : Obligations.GrayChangesOneBitCyclically := by
  intro A b hA hb
  refine ⟨gray_next_changes_one_bit hA hb, ?_, by decide, by decide⟩
  have htop := gray_two_pow_sub_one (A - 1)
  rwa [Nat.sub_add_cancel hA] at htop

/-! ### Full and empty per pair of cursors (R118) -/

theorem incPtr_ne {c : Config} (hc : c.wf = true) (x : Nat) : incPtr c x ≠ x := by
  intro h
  have hN := two_le_slots hc
  have hlt : x < c.slots := h ▸ incPtr_lt c x
  rw [incPtr_eq] at h
  by_cases hwrap : x + 1 = c.slots
  · rw [hwrap, Nat.mod_self] at h
    omega
  · rw [Nat.mod_eq_of_lt (by omega)] at h
    omega

/-- R118: one cursor cannot be both at another and one slot before it. -/
theorem not_full_and_empty {c : Config} (hc : c.wf = true) (tail head : Nat) : ¬(incPtr c tail = head ∧ tail = head) :=
  fun ⟨hfull, hempty⟩ => incPtr_ne hc tail (hfull.trans hempty.symm)

/-- Settles O11: a pointer is never its own successor; across the domains, three enqueues that no R-edge has seen. -/
theorem fullAndEmptyExcludePerView : Obligations.FullAndEmptyExcludePerView :=
  ⟨fun _ h => ⟨not_full_and_empty h.cfg _ _, not_full_and_empty h.cfg _ _, not_full_and_empty h.cfg _ _⟩,
    _, run_of_runNew (by decide), by decide⟩

/-! ### Synchronisers (R110, R111, R112, R122) -/

/-- R112: every W-edge that is not held. -/
theorem exec_syncs_head {i : Instr} {s t : State} (hs : exec i s = .next t) (hi : i.format = .we)
    (hh : s.wHeld = false) :
    t.w.wq = shiftIn (if s.x.rgrayDirty = true ∧ s.drawsOld .wq1 = true then s.x.rgrayPrev else s.r.rptrGray) s.w.wq ∧
      t.x.rgrayDirty = false := by
  rcases exec_next_cases hs with ⟨-, hheld, -⟩ | ⟨-, -, -, rfl⟩ | ⟨d, -, -, -, rfl⟩ | ⟨d, -, -, -, rfl⟩ | ⟨hre, -⟩ |
    ⟨m, rfl, -⟩ | ⟨m, rfl, -⟩ | ⟨m, rfl, -⟩ | ⟨m, rfl, -⟩ | ⟨rfl, -⟩ | ⟨rfl, -⟩
  · exact absurd (hheld.symm.trans hh) nofun
  · exact ⟨rfl, rfl⟩
  · exact ⟨rfl, rfl⟩
  · exact ⟨rfl, rfl⟩
  · exact absurd (hre.symm.trans hi) nofun
  all_goals cases hi

/-- A tick leaves every synchroniser of the read domain to the frame. -/
theorem tick_keeps_syncs (m : Nat) (pre post : State) :
    (tick m pre post).r.rRs = post.r.rRs ∧ (tick m pre post).r.rq = post.r.rq ∧
      (tick m pre post).x.wgrayDirty = post.x.wgrayDirty ∧ (tick m pre post).r.armS = post.r.armS ∧
      (tick m pre post).x.armDirty = post.x.armDirty := by
  rcases tick_cases m pre post with ⟨-, e⟩ | ⟨-, -, e⟩ | ⟨-, -, -, e⟩ | ⟨-, -, -, e⟩ <;> rw [e] <;>
    exact ⟨rfl, rfl, rfl, rfl, rfl⟩

/-- R40, R111, R122: every R-edge that is not held. -/
theorem exec_syncs_as_readFrame {i : Instr} {s t : State} (hs : exec i s = .next t) (hi : i.format = .re)
    (hh : s.rHeld = false) :
    t.r.rRs = (readFrame s).r.rRs ∧ t.r.rq = (readFrame s).r.rq ∧ t.x.wgrayDirty = (readFrame s).x.wgrayDirty ∧
      t.r.armS = (readFrame s).r.armS ∧ t.x.armDirty = (readFrame s).x.armDirty := by
  obtain ⟨-, rfl⟩ := exec_next hs
  cases i with
  | rNop m =>
    rw [after_rNop_released hh]
    exact ⟨rfl, rfl, rfl, rfl, rfl⟩
  | rDeq m =>
    cases he : s.rEmpty with
    | true =>
      rw [after_rDeq_empty hh he]
      exact ⟨rfl, rfl, rfl, rfl, rfl⟩
    | false =>
      rw [after_rDeq_visible he]
      exact ⟨rfl, rfl, rfl, rfl, rfl⟩
  | rcTick m =>
    rw [after, rEdge_released hh]
    exact tick_keeps_syncs m s (readFrame s)
  | wNop _ | wEnq _ | wArm _ | wEnqArm _ | resetAssert | resetDeassert => cases hi

theorem exec_syncs_tail {i : Instr} {s t : State} (hs : exec i s = .next t) (hi : i.format = .re)
    (hh : s.rHeld = false) :
    t.r.rq = shiftIn (if s.x.wgrayDirty = true ∧ s.drawsOld .rq1 = true then s.x.wgrayPrev else s.w.wptrGray) s.r.rq ∧
      t.x.wgrayDirty = false := by
  obtain ⟨-, hrq, hdirty, -⟩ := exec_syncs_as_readFrame hs hi hh
  exact ⟨hrq, hdirty⟩

theorem exec_syncs_arm {i : Instr} {s t : State} (hs : exec i s = .next t) (hi : i.format = .re)
    (hh : s.rHeld = false) (hrc : s.cfg.hasRc = true) :
    t.r.armS = shiftIn (if s.x.armDirty = true ∧ s.drawsOld .as1 = true then s.x.armPrev else s.w.armQ) s.r.armS ∧
      t.x.armDirty = false := by
  obtain ⟨-, -, -, harm, hdirty⟩ := exec_syncs_as_readFrame hs hi hh
  exact ⟨by simpa [readFrame, hrc] using harm, by simpa [readFrame, hrc] using hdirty⟩

/-- Settles O26: the operation step on top of the frame touches no synchroniser. -/
theorem everyEdgeRunsItsSynchroniser : Obligations.EveryEdgeRunsItsSynchroniser := fun _ _ _ hs =>
  ⟨exec_syncs_head hs, fun hi hh =>
    have ⟨hrq, hdirty⟩ := exec_syncs_tail hs hi hh
    ⟨hrq, hdirty, exec_syncs_arm hs hi hh⟩⟩

/-- The state with other draw choices of the environment. -/
def State.withDraws (s : State) (draws : Draws) : State := { s with env := { s.env with draws := draws } }

theorem withDraws_allNew (s : State) (site : Site) : (s.withDraws Draws.allNew).drawsOld site = false := by
  cases site <;> rfl

theorem withDraws_allOld (s : State) (site : Site) : (s.withDraws ⟨.old, .old, .old⟩).drawsOld site = true := by
  cases site <;> rfl

/-- R110: the first stage of a chain, over all draws, when the edge of `i` shifts a capture into the chain. -/
theorem first_stage_iff {α : Type} {i : Instr} {s : State} {site : Site} {stages : State → List α} {chain : List α}
    {cur prev : α} {dirty : Bool} (hwf : i.wellFormed s.cfg = true) (hne : chain ≠ [])
    (hshift : ∀ draws t, exec i (s.withDraws draws) = .next t →
      stages t = shiftIn (if dirty = true ∧ (s.withDraws draws).drawsOld site = true then prev else cur) chain)
    (v : α) :
    (∃ draws t, exec i (s.withDraws draws) = .next t ∧ (stages t).head? = some v) ↔
      v = cur ∨ (dirty = true ∧ v = prev) := by
  have hfirst : ∀ draws t, exec i (s.withDraws draws) = .next t → (stages t).head? =
      some (if dirty = true ∧ (s.withDraws draws).drawsOld site = true then prev else cur) := fun draws t ht => by
    rw [hshift draws t ht, shiftIn_eq_cons_dropLast _ hne, List.head?_cons]
  have hnext : ∀ draws, exec i (s.withDraws draws) = .next (after i (s.withDraws draws)) := fun _ =>
    exec_of_wellFormed hwf
  constructor
  · rintro ⟨draws, t, ht, hv⟩
    rw [hfirst draws t ht, Option.some_inj] at hv
    split at hv
    next hold => exact .inr ⟨hold.1, hv.symm⟩
    next => exact .inl hv.symm
  · rintro (rfl | ⟨hd, rfl⟩)
    · exact ⟨_, _, hnext Draws.allNew, by simp [hfirst _ _ (hnext _), withDraws_allNew]⟩
    · exact ⟨_, _, hnext ⟨.old, .old, .old⟩, by simp [hfirst _ _ (hnext _), withDraws_allOld, hd]⟩

theorem chain_ne_nil {α : Type} {c : Config} {chain : List α} (hc : c.wf = true) (hlen : chain.length = c.syncStages) :
    chain ≠ [] := by
  simp only [Config.wf, Bool.and_eq_true, decide_eq_true_eq] at hc
  exact List.ne_nil_of_length_pos (by omega)

/-- Settles O27: the three first stages, each with its source, and what every other edge clears. -/
theorem captureAdmitsExactlyTheDraws : Obligations.CaptureAdmitsExactlyTheDraws := by
  intro s h
  have hread : (Instr.rNop 0).wellFormed s.cfg = true := wellFormed_idleOf s.cfg .read
  have hwrite : (Instr.wNop 0).wellFormed s.cfg = true := wellFormed_idleOf s.cfg .write
  refine ⟨fun hh => ?_, fun hh => ?_, fun hh hrc => ?_, fun t i hs => ⟨fun hi hh => ?_, fun hi hh => ?_⟩⟩
  · exact first_stage_iff (stages := fun t => t.r.rq) hread (chain_ne_nil h.cfg h.rqLength) fun _ _ ht =>
      (exec_syncs_tail ht rfl hh).1
  · exact first_stage_iff (stages := fun t => t.w.wq) hwrite (chain_ne_nil h.cfg h.wqLength) fun _ _ ht =>
      (exec_syncs_head ht rfl hh).1
  · exact first_stage_iff (stages := fun t => t.r.armS) hread (chain_ne_nil h.cfg h.armSLength) fun _ _ ht =>
      (exec_syncs_arm ht rfl hh hrc).1
  · exact ⟨(exec_syncs_tail hs hi hh).2, fun hrc => (exec_syncs_arm hs hi hh hrc).2⟩
  · exact (exec_syncs_head hs hi hh).2

/-! ### The published pointers (R108) -/

/-- A pointer a domain publishes, in its two forms, the operations accepted at it, and whether its latest change is still
to be captured. -/
structure PublishedPointer where
  bin : Nat
  gray : Nat
  count : Nat
  dirty : Bool

/-- The write domain's pointer. -/
def State.tailPtr (s : State) : PublishedPointer := ⟨s.w.wptrBin, s.w.wptrGray, s.g.enqCount, s.x.wgrayDirty⟩

/-- The read domain's pointer. -/
def State.headPtr (s : State) : PublishedPointer := ⟨s.r.rptrBin, s.r.rptrGray, s.g.deqCount, s.x.rgrayDirty⟩

/-- R108, R110: what an operation that is no reset assertion does to a published pointer, by whether its domain accepts
at it: the pointer moves one slot, or stays, or stays and is captured by the other domain. -/
inductive PointerStep (c : Config) : Bool → PublishedPointer → PublishedPointer → Prop where
  | moved (p : PublishedPointer) :
    PointerStep c true p
      { bin := incPtr c p.bin, gray := Machine.gray (incPtr c p.bin), count := p.count + 1, dirty := true }
  | kept (p : PublishedPointer) : PointerStep c false p p
  | captured (p : PublishedPointer) : PointerStep c false p { p with dirty := false }

theorem tick_tailPtr (m : Nat) (pre post : State) : (tick m pre post).tailPtr = post.tailPtr := by
  rcases tick_cases m pre post with ⟨-, e⟩ | ⟨-, -, e⟩ | ⟨-, -, -, e⟩ | ⟨-, -, -, e⟩ <;> rw [e] <;> rfl

/-- R108: the write domain's pointer, at every operation but a reset assertion. -/
theorem exec_tailPtr {i : Instr} {s t : State} (hs : exec i s = .next t) (hne : i ≠ .resetAssert) :
    PointerStep s.cfg (acceptsEnqueue i s) s.tailPtr t.tailPtr := by
  rcases exec_next_cases hs with ⟨-, hh, rfl⟩ | ⟨-, -, hreq, rfl⟩ | ⟨d, hi, -, hf, rfl⟩ | ⟨d, -, -, hf, rfl⟩ |
    ⟨hi, -, rfl⟩ | ⟨m, rfl, -, rfl⟩ | ⟨m, rfl, -, -, rfl⟩ | ⟨m, rfl, -, -, -, rfl⟩ | ⟨m, rfl, -, -, -, rfl⟩ | ⟨rfl, -⟩ |
    ⟨rfl, rfl⟩
  · rw [acceptsEnqueue_of_full i (full_of_held hh)]
    exact .kept _
  · rw [acceptsEnqueue_of_no_request hreq]
    exact .kept _
  · rw [acceptsEnqueue_of_room hi hf]
    exact .moved _
  · rw [acceptsEnqueue_of_full i hf]
    exact .kept _
  · rw [acceptsEnqueue_of_no_request (requestsEnqueue_of_format (by simp [hi]))]
    exact .kept _
  · exact .captured _
  · exact .captured _
  · exact .captured _
  · rw [tick_tailPtr]
    exact .captured _
  · exact absurd rfl hne
  · exact .kept _

theorem acceptsDequeue_of_empty (i : Instr) {s : State} (h : s.rEmpty = true) : acceptsDequeue i s = false := by
  cases i <;> simp [acceptsDequeue, h]

theorem acceptsDequeue_of_format {i : Instr} (h : i.format ≠ .re) (s : State) : acceptsDequeue i s = false := by
  cases i with
  | rNop _ | rDeq _ | rcTick _ => exact absurd rfl h
  | wNop _ | wEnq _ | wArm _ | wEnqArm _ | resetAssert | resetDeassert => rfl

/-- R126: a tick moves the pointer in its drain branch alone. -/
theorem tick_headPtr {s : State} (hh : s.rHeld = false) (m : Nat) :
    PointerStep s.cfg (acceptsDequeue (.rcTick m) s) s.headPtr (tick m s (readFrame s)).headPtr := by
  rcases tick_cases m s (readFrame s) with ⟨hen, e⟩ | ⟨-, hc, e⟩ | ⟨hen, hc, he, e⟩ | ⟨-, -, he, e⟩ <;> rw [e]
  · have hacc : acceptsDequeue (.rcTick m) s = false := by simp [acceptsDequeue, dueTick, hen]
    exact hacc ▸ .kept _
  · have hacc : acceptsDequeue (.rcTick m) s = false := by simp [acceptsDequeue, dueTick, hc]
    exact hacc ▸ .kept _
  · have hacc : acceptsDequeue (.rcTick m) s = true := by simp [acceptsDequeue, dueTick, hh, hen, hc, he]
    exact hacc ▸ .moved _
  · rw [acceptsDequeue_of_empty _ he]
    exact .kept _

/-- R108: the read domain's pointer, at every operation but a reset assertion. -/
theorem exec_headPtr {i : Instr} {s t : State} (hs : exec i s = .next t) (hne : i ≠ .resetAssert) :
    PointerStep s.cfg (acceptsDequeue i s) s.headPtr t.headPtr := by
  rcases exec_next_cases hs with ⟨hi, -, rfl⟩ | ⟨hi, -, -, rfl⟩ | ⟨d, hi, -, -, rfl⟩ | ⟨d, hi, -, -, rfl⟩ |
    ⟨-, hh, rfl⟩ | ⟨m, rfl, -, rfl⟩ | ⟨m, rfl, -, he, rfl⟩ | ⟨m, rfl, -, -, he, rfl⟩ | ⟨m, rfl, -, -, hh, rfl⟩ |
    ⟨rfl, -⟩ | ⟨rfl, rfl⟩
  · rw [acceptsDequeue_of_format (by simp [hi])]
    exact .kept _
  · rw [acceptsDequeue_of_format (by simp [hi])]
    exact .captured _
  · rw [acceptsDequeue_of_format (by simp [format_of_enqueue hi])]
    exact .captured _
  · rw [acceptsDequeue_of_format (by simp [format_of_enqueue hi])]
    exact .captured _
  · rw [acceptsDequeue_of_empty i (empty_of_held hh)]
    exact .kept _
  · exact .kept _
  · have hacc : acceptsDequeue (.rDeq m) s = true := by simp [acceptsDequeue, he]
    exact hacc ▸ .moved _
  · rw [acceptsDequeue_of_empty _ he]
    exact .kept _
  · exact tick_headPtr hh m
  · exact absurd rfl hne
  · exact .kept _

section PointerStep

variable {c : Config} {accepts : Bool} {p p' : PublishedPointer} (h : PointerStep c accepts p p')
include h

theorem PointerStep.count_le : p.count ≤ p'.count := by
  cases h with
  | moved => exact Nat.le_succ _
  | kept => exact le_rfl
  | captured => exact le_rfl

/-- A pointer at which nothing is accepted keeps its value, and no change of it becomes pending. -/
theorem PointerStep.unchanged (hcount : p'.count = p.count) : p'.gray = p.gray ∧ (p'.dirty = true → p.dirty = true) := by
  cases h with
  | moved => exact absurd hcount (Nat.succ_ne_self _)
  | kept => exact ⟨rfl, id⟩
  | captured => exact ⟨rfl, nofun⟩

/-- R107, R108: one slot and one gray bit per accepted operation. -/
theorem PointerStep.one_slot_one_bit (hc : c.wf = true) (hbin : p.bin < c.slots) (hgray : p.gray = Machine.gray p.bin) :
    (accepts = true → p'.bin = (p.bin + 1) % c.slots ∧ ∃ k < c.addrBits, p.gray ^^^ p'.gray = 2 ^ k) ∧
      (accepts = false → p'.bin = p.bin ∧ p'.gray = p.gray) := by
  have hA : 1 ≤ c.addrBits := by
    simp only [Config.wf, Bool.and_eq_true, decide_eq_true_eq] at hc
    omega
  cases h with
  | moved => exact ⟨fun _ => ⟨rfl, hgray ▸ gray_next_changes_one_bit hA hbin⟩, nofun⟩
  | kept => exact ⟨nofun, fun _ => ⟨rfl, rfl⟩⟩
  | captured => exact ⟨nofun, fun _ => ⟨rfl, rfl⟩⟩

end PointerStep

theorem format_of_acceptsEnqueue {i : Instr} {s : State} (h : acceptsEnqueue i s = true) : i.format = .we := by
  by_contra hi
  rw [acceptsEnqueue_of_no_request (requestsEnqueue_of_format hi)] at h
  cases h

theorem format_of_acceptsDequeue {i : Instr} {s : State} (h : acceptsDequeue i s = true) : i.format = .re := by
  by_contra hi
  rw [acceptsDequeue_of_format hi] at h
  cases h

/-- Settles O37: both pointers take a `PointerStep`. -/
theorem pointersMoveOneSlotPerAcceptance : Obligations.PointersMoveOneSlotPerAcceptance := by
  intro s t i h hw hr hs hne
  obtain ⟨htail, htailStays⟩ := (exec_tailPtr hs hne).one_slot_one_bit h.cfg h.wptrBin hw
  obtain ⟨hhead, hheadStays⟩ := (exec_headPtr hs hne).one_slot_one_bit h.cfg h.rptrBin hr
  exact ⟨fun ha => ⟨format_of_acceptsEnqueue ha, htail ha⟩, htailStays,
    fun ha => ⟨format_of_acceptsDequeue ha, hhead ha⟩, hheadStays⟩

/-! ### Views do not move backwards (R115, R65) -/

/-- A chain in falling order rises stage by stage when a tag no less than its first is shifted in. -/
theorem forall₂_le_shiftIn {v : Nat} {l : List Nat} (h : (v :: l).Pairwise (· ≥ ·)) :
    List.Forall₂ (· ≤ ·) l (shiftIn v l) := by
  induction l generalizing v with
  | nil => exact .nil
  | cons a l ih =>
    obtain ⟨hv, hl⟩ := List.pairwise_cons.mp h
    exact .cons (hv a List.mem_cons_self) (ih hl)

section NextTags

variable {s : State} {wt rt : List Nat} (h : RingInv s wt rt) (i : Instr)
include h

theorem RingInv.le_nextWt : List.Forall₂ (· ≤ ·) wt (nextWt i s wt) := by
  unfold nextWt
  split
  · exact forall₂_le_shiftIn (List.pairwise_cons.mpr ⟨h.tags_le_headSample, (List.pairwise_cons.mp h.wqOrder).2⟩)
  · exact List.forall₂_refl wt

theorem RingInv.le_nextRt : List.Forall₂ (· ≤ ·) rt (nextRt i s rt) := by
  unfold nextRt
  split
  · exact forall₂_le_shiftIn (List.pairwise_cons.mpr ⟨h.tags_le_tailSample, (List.pairwise_cons.mp h.rqOrder).2⟩)
  · exact List.forall₂_refl rt

end NextTags

/-- Settles O46: the tags `exec_keeps_ring` gives are those shifted by one sample, which no stage has passed. -/
theorem viewsNeverMoveBackwards : Obligations.ViewsNeverMoveBackwards := fun _ _ i _ _ h hs hne =>
  ⟨_, _, exec_keeps_ring h hs hne, h.le_nextWt i, h.le_nextRt i, (exec_tailPtr hs hne).count_le,
    (exec_headPtr hs hne).count_le⟩

/-! ### Views converge (R116)

A destination domain has a source, the other domain's published pointer, and the chain of stages it samples it with. Each
of its edges brings the source's value one stage further, once no change of the source is pending. -/

/-- The format of a domain's edges. -/
def edgeFormat : Domain → Format
  | .write => .we
  | .read => .re

/-- The pointer a domain samples. -/
def State.source (s : State) : Domain → PublishedPointer
  | .write => s.headPtr
  | .read => s.tailPtr

/-- The stages a domain samples it with. -/
def State.stages (s : State) : Domain → List Nat
  | .write => s.w.wq
  | .read => s.r.rq

/-- R152: a domain is released for good. -/
def State.Released (s : State) : Domain → Prop
  | .write => s.WriteReleased
  | .read => s.ReadReleased

/-- R116: what `k` more edges of the destination need to bring its view to its source: all but the last `k` stages hold
the source's value, and a pending change of it needs one edge more than there are stages. -/
structure SettlesIn (k : Nat) (p : PublishedPointer) (chain : List Nat) : Prop where
  settled : ∀ v ∈ chain.take (chain.length - k), v = p.gray
  pending : p.dirty = true → chain.length < k

theorem settlesIn_all_stages (p : PublishedPointer) (chain : List Nat) :
    SettlesIn (chain.length + if p.dirty = true then 1 else 0) p chain where
  settled := by simp
  pending hd := by simp [hd]

theorem SettlesIn.view_eq {p : PublishedPointer} {chain : List Nat} (h : SettlesIn 0 p chain) (hne : chain ≠ []) :
    chain.getLastD 0 = p.gray :=
  h.settled _ (by simpa using getLastD_mem hne 0)

theorem SettlesIn.of_unchanged {k : Nat} {p p' : PublishedPointer} {chain : List Nat} (h : SettlesIn k p chain)
    (hgray : p'.gray = p.gray) (hdirty : p'.dirty = true → p.dirty = true) : SettlesIn k p' chain where
  settled v hv := (h.settled v hv).trans hgray.symm
  pending hd := h.pending (hdirty hd)

theorem mem_take_shiftIn {α : Type} {v a : α} {l : List α} {n : Nat} (h : a ∈ (shiftIn v l).take (n + 1)) :
    a = v ∨ a ∈ l.take n := by
  rw [shiftIn_eq_dropLast] at h
  have hcons : a ∈ (v :: l).take (n + 1) := ((List.dropLast_prefix (v :: l)).take (n + 1)).subset h
  simpa using hcons

/-- R110, R116: an edge of the destination at which the source stays: a clean source is captured as it is. -/
theorem SettlesIn.edge {k v : Nat} {p p' : PublishedPointer} {chain : List Nat} (h : SettlesIn k p chain)
    (hgray : p'.gray = p.gray) (hclean : p'.dirty = false) (hv : p.dirty = false → v = p.gray) :
    SettlesIn (k - 1) p' (shiftIn v chain) where
  settled u hu := by
    rw [hgray]
    rw [shiftIn_length] at hu
    cases hd : p.dirty with
    | true =>
      have hk := h.pending hd
      rw [show chain.length - (k - 1) = 0 by omega] at hu
      exact absurd hu List.not_mem_nil
    | false =>
      have hle : chain.length - (k - 1) ≤ chain.length - k + 1 := by omega
      rcases mem_take_shiftIn (List.take_subset_take_left _ hle hu) with rfl | hold
      · exact hv hd
      · exact h.settled u hold
  pending hd := absurd (hclean.symm.trans hd) nofun

theorem not_held_of_readReleased {s : State} (h : s.ReadReleased) : s.rHeld = false :=
  getLastD_of_forall (p := (· = false)) rfl h.2

theorem resetDeassert_of_format {i : Instr} (hi : i.format = .sy) (hne : i ≠ .resetAssert) : i = .resetDeassert := by
  cases i with
  | resetAssert => exact absurd rfl hne
  | resetDeassert => rfl
  | wNop _ | wEnq _ | wArm _ | wEnqArm _ | rNop _ | rDeq _ | rcTick _ => cases hi

theorem exec_keeps_readReleased {i : Instr} {s t : State} (hne : i ≠ .resetAssert) (h : s.ReadReleased)
    (hs : exec i s = .next t) : t.ReadReleased := by
  obtain ⟨hrst, hchain⟩ := h
  have hafter := (exec_next hs).2
  cases hi : i.format with
  | we =>
    obtain ⟨hr, hrst', -⟩ := after_keeps_readSide hi s
    exact ⟨by rw [hafter, hrst', hrst], by rw [hafter, hr]; exact hchain⟩
  | re =>
    obtain ⟨-, -, -, hrst', -⟩ := after_keeps_writeSide hi s
    obtain ⟨hRs, -⟩ := exec_syncs_as_readFrame hs hi (not_held_of_readReleased ⟨hrst, hchain⟩)
    refine ⟨by rw [hafter, hrst', hrst], fun b hb => ?_⟩
    rw [hRs, readFrame_rRs] at hb
    exact (mem_shiftIn hb).elim (·.trans hrst) (hchain b)
  | sy =>
    obtain rfl := resetDeassert_of_format hi hne
    exact hafter ▸ ⟨rfl, hchain⟩

section Crossing

variable {i : Instr} {s t : State} {dom : Domain} (hs : exec i s = .next t) (hne : i ≠ .resetAssert)
include hs hne

theorem exec_source : ∃ accepts, PointerStep s.cfg accepts (s.source dom) (t.source dom) := by
  cases dom with
  | write => exact ⟨_, exec_headPtr hs hne⟩
  | read => exact ⟨_, exec_tailPtr hs hne⟩

theorem exec_keeps_released (h : s.Released dom) : t.Released dom := by
  cases dom with
  | write => exact exec_keeps_writeReleased hne h hs
  | read => exact exec_keeps_readReleased hne h hs

omit hne in
/-- R110, R111, R112: an edge of a released destination shifts its source's value into its stages, unless a change was
pending. -/
theorem exec_shifts_stages (h : s.Released dom) (hi : i.format = edgeFormat dom) :
    (t.source dom).dirty = false ∧
      ∃ v, t.stages dom = shiftIn v (s.stages dom) ∧ ((s.source dom).dirty = false → v = (s.source dom).gray) := by
  cases dom with
  | write =>
    obtain ⟨hstages, hclean⟩ := exec_syncs_head hs hi (not_held_of_writeReleased h)
    exact ⟨hclean, _, hstages, fun hd => if_neg fun hold => Bool.false_ne_true (hd.symm.trans hold.1)⟩
  | read =>
    obtain ⟨hstages, hclean⟩ := exec_syncs_tail hs hi (not_held_of_readReleased h)
    exact ⟨hclean, _, hstages, fun hd => if_neg fun hold => Bool.false_ne_true (hd.symm.trans hold.1)⟩

/-- R60: no other operation moves them. -/
theorem exec_keeps_stages (hi : i.format ≠ edgeFormat dom) : t.stages dom = s.stages dom := by
  obtain ⟨-, rfl⟩ := exec_next hs
  cases dom with
  | write =>
    cases hf : i.format with
    | we => exact absurd hf hi
    | re => exact congrArg WriteDomain.wq (after_keeps_writeSide hf s).1
    | sy =>
      obtain rfl := resetDeassert_of_format hf hne
      rfl
  | read =>
    cases hf : i.format with
    | we => exact congrArg ReadDomain.rq (after_keeps_readSide hf s).1
    | re => exact absurd hf hi
    | sy =>
      obtain rfl := resetDeassert_of_format hf hne
      rfl

/-- R116: one operation at which the source accepts nothing. -/
theorem SettlesIn.exec {k : Nat} (h : SettlesIn k (s.source dom) (s.stages dom)) (hrel : s.Released dom)
    (hcount : (t.source dom).count = (s.source dom).count) :
    SettlesIn (k - if i.format = edgeFormat dom then 1 else 0) (t.source dom) (t.stages dom) := by
  obtain ⟨_, hstep⟩ := exec_source (dom := dom) hs hne
  obtain ⟨hgray, hdirty⟩ := hstep.unchanged hcount
  split
  next hi =>
    obtain ⟨hclean, v, hstages, hv⟩ := exec_shifts_stages hs hrel hi
    exact hstages ▸ h.edge hgray hclean hv
  next hi =>
    exact exec_keeps_stages hs hne hi ▸ h.of_unchanged hgray hdirty

end Crossing

theorem run_count_le {s t : State} {is : List Instr} (dom : Domain) (hn : NoReset is) (hr : Run s is t) :
    (s.source dom).count ≤ (t.source dom).count :=
  run_keeps_noReset (Inv := fun t => (s.source dom).count ≤ (t.source dom).count)
    (fun _ _ _ _ hne hle hs =>
      have ⟨_, hstep⟩ := exec_source (dom := dom) hs hne
      hle.trans hstep.count_le) hn le_rfl hr

/-- R116: a run at which the source accepts nothing. -/
theorem SettlesIn.run {s t : State} {is : List Instr} {dom : Domain} {k : Nat}
    (h : SettlesIn k (s.source dom) (s.stages dom)) (hn : NoReset is) (hrel : s.Released dom) (hr : Run s is t)
    (hcount : (t.source dom).count = (s.source dom).count) :
    SettlesIn (k - is.countP fun i => i.format == edgeFormat dom) (t.source dom) (t.stages dom) := by
  induction hr generalizing k with
  | done s => simpa using h
  | @more s t u i is e first rest ih =>
    simp only [NoReset, List.mem_cons, not_or] at hn
    obtain ⟨hne, hn⟩ := hn
    obtain ⟨_, hstep⟩ := exec_source (dom := dom) first (Ne.symm hne)
    have hle : (s.source dom).count ≤ (t.source dom).count := hstep.count_le
    have hle' := run_count_le dom hn rest
    have hfirst := SettlesIn.exec (dom := dom) first (Ne.symm hne) h hrel (show _ = (s.source dom).count by omega)
    have hrest := ih hfirst hn (exec_keeps_released first (Ne.symm hne) hrel) (by omega)
    simpa [List.countP_cons, Nat.sub_sub, Nat.add_comm] using hrest

theorem run_keeps_wf {s t : State} {is : List Instr} (h : s.Wf) (hr : Run s is t) : t.Wf :=
  run_keeps (fun _ _ e _ hwf => exec_keeps_wf (wf_withEnv hwf e)) h hr

theorem State.Wf.stages_length {s : State} (h : s.Wf) (dom : Domain) : (s.stages dom).length = s.cfg.syncStages := by
  cases dom with
  | write => exact h.wqLength
  | read => exact h.rqLength

/-- R116, for either destination. -/
theorem view_converges {s t : State} {is : List Instr} {dom : Domain} (hwf : s.Wf) (hn : NoReset is) (hr : Run s is t)
    (hrel : s.Released dom) (hcount : (t.source dom).count = (s.source dom).count)
    (hedges : s.cfg.syncStages + (if (s.source dom).dirty = true then 1 else 0) ≤
      is.countP fun i => i.format == edgeFormat dom) :
    (t.stages dom).getLastD 0 = (t.source dom).gray := by
  have ht := run_keeps_wf hwf hr
  have hsettles := (settlesIn_all_stages (s.source dom) (s.stages dom)).run hn hrel hr hcount
  rw [hwf.stages_length, Nat.sub_eq_zero_of_le hedges] at hsettles
  exact hsettles.view_eq (chain_ne_nil ht.cfg (ht.stages_length dom))

/-- Settles O50: each destination's edges bring the value of its source one stage further. -/
theorem viewsConvergeToTheirSource : Obligations.ViewsConvergeToTheirSource := fun _ _ _ hwf hn hr =>
  ⟨view_converges (dom := .read) hwf hn hr, view_converges (dom := .write) hwf hn hr⟩

end Sys2Proof.Machine

/-! The obligations of 43_rate_controller.md: the four branches of a tick, what every edge of the read port does to the
companion's registers, the period between drains, and the reference producer. -/

namespace Sys2Proof.Machine

/-! ### A tick at an edge that is not held, by its branch (R125, R126) -/

theorem wellFormed_rcTick {c : Config} {m : Nat} (hrc : c.hasRc = true) (hm : m < 2 ^ c.periodBits) :
    (Instr.rcTick m).wellFormed c = true := by
  simp [Instr.wellFormed, Instr.fitsFormat, Instr.portsPresent, fits, hm, hrc]

theorem after_rcTick_released {s : State} (hh : s.rHeld = false) (m : Nat) :
    after (.rcTick m) s = tick m s (readFrame s) :=
  rEdge_released hh (tick m)

/-- R125: below the register's bound `cycle + 1` does not wrap. -/
theorem nextCycle_of_lt {c : Config} {n : Nat} (h : n + 1 < 2 ^ (c.periodBits + 1)) : nextCycle c n = n + 1 :=
  Nat.mod_eq_of_lt h

theorem dueTick_iff {m : Nat} {s : State} :
    dueTick (.rcTick m) s = true ↔ s.rHeld = false ∧ s.r.enable = true ∧
      effectivePeriod s.r.consumeEvery m ≤ nextCycle s.cfg s.r.cycle := by
  simp [dueTick, and_assoc]

section Tick

variable {s : State} {m : Nat} (hrc : s.cfg.hasRc = true) (hm : m < 2 ^ s.cfg.periodBits)
include hrc hm

theorem exec_rcTick_released (hh : s.rHeld = false) : exec (.rcTick m) s = .next (tick m s (readFrame s)) :=
  (exec_of_wellFormed (wellFormed_rcTick hrc hm)).trans (congrArg _ (after_rcTick_released hh m))

theorem exec_rcTick_drain (hdue : dueTick (.rcTick m) s = true) (he : s.rEmpty = false) :
    exec (.rcTick m) s = .next (drain m s (readFrame s)) := by
  obtain ⟨hh, hen, hperiod⟩ := dueTick_iff.mp hdue
  rw [exec_rcTick_released hrc hm hh, tick_drain hen hperiod he]

theorem exec_rcTick_underrun (hdue : dueTick (.rcTick m) s = true) (he : s.rEmpty = true) :
    exec (.rcTick m) s = .next (underrun m s (readFrame s)) := by
  obtain ⟨hh, hen, hperiod⟩ := dueTick_iff.mp hdue
  rw [exec_rcTick_released hrc hm hh, tick_underrun hen hperiod he]

end Tick

theorem dueTick_of_elapsed {s : State} {m : Nat} (hh : s.rHeld = false) (hen : s.r.enable = true)
    (hcycle : s.r.cycle + 1 < 2 ^ (s.cfg.periodBits + 1)) (helapsed : s.r.consumeEvery + m ≤ s.r.cycle + 1) :
    dueTick (.rcTick m) s = true :=
  dueTick_iff.mpr ⟨hh, hen, (nextCycle_of_lt hcycle).symm ▸ helapsed⟩

/-- Settles O21: the first two branches of a tick; `cycle + 1` does not wrap below the period. -/
theorem tickThatIsNotDueOnlyCounts : Obligations.TickThatIsNotDueOnlyCounts := by
  intro s m hrc hm hh
  rw [exec_rcTick_released hrc hm hh]
  refine ⟨fun hen => congrArg _ (tick_disabled hen _), fun hen hce hwait => ?_⟩
  have hnext : nextCycle s.cfg s.r.cycle = s.r.cycle + 1 :=
    nextCycle_of_lt (hwait.trans (effectivePeriod_lt hce hm))
  rw [tick_waiting hen (hnext.symm ▸ hwait), hnext]

/-- Settles O22: the drain branch on top of the frame. -/
theorem dueTickDrains : Obligations.DueTickDrains := fun _ _ hrc hm he hen hcycle helapsed =>
  exec_rcTick_drain hrc hm (dueTick_of_elapsed (not_held_of_visible he) hen hcycle helapsed) he

/-- Settles O23: the underrun branch on top of the frame. -/
theorem dueTickUnderruns : Obligations.DueTickUnderruns := fun _ _ hrc hm hh he hen hcycle helapsed =>
  exec_rcTick_underrun hrc hm (dueTick_of_elapsed hh hen hcycle helapsed) he

/-! ### What an edge of the read port does to the companion's registers (R123, R127, R129) -/

/-- The companion's registers (R46) but for its synchroniser and for `cycle`, which a tick that is not due counts up. -/
structure CompanionRegs where
  enable : Bool
  consumeEvery : Nat
  report : ReportPorts

def State.companionRegs (s : State) : CompanionRegs :=
  ⟨s.r.enable, s.r.consumeEvery, s.r.rptValid, s.r.rptKind, s.r.rptData, s.r.rptPeriod⟩

/-- R126: at an edge that is not held, a due tick drains or takes the underrun; every other operation of the read port
leaves the companion's registers to the frame. -/
theorem exec_read_companion_cases {i : Instr} {s t : State} (hs : exec i s = .next t) (hi : i.format = .re)
    (hh : s.rHeld = false) :
    (dueTick i s = false ∧ t.companionRegs = (readFrame s).companionRegs) ∨
    (∃ m, i = .rcTick m ∧ dueTick i s = true ∧ s.rEmpty = false ∧ t = drain m s (readFrame s)) ∨
    (∃ m, i = .rcTick m ∧ dueTick i s = true ∧ s.rEmpty = true ∧ t = underrun m s (readFrame s)) := by
  obtain ⟨-, rfl⟩ := exec_next hs
  cases i with
  | rNop m =>
    rw [after_rNop_released hh]
    exact .inl ⟨rfl, rfl⟩
  | rDeq m =>
    cases he : s.rEmpty with
    | true =>
      rw [after_rDeq_empty hh he]
      exact .inl ⟨rfl, rfl⟩
    | false =>
      rw [after_rDeq_visible he]
      exact .inl ⟨rfl, rfl⟩
  | rcTick m =>
    have hafter := after_rcTick_released hh m
    rcases tick_cases m s (readFrame s) with ⟨hen, e⟩ | ⟨-, hwait, e⟩ | ⟨hen, hperiod, he, e⟩ | ⟨hen, hperiod, he, e⟩
    · exact .inl ⟨by simp [dueTick, hen], (congrArg State.companionRegs (hafter.trans e) :)⟩
    · exact .inl ⟨by simp [dueTick, hwait], (congrArg State.companionRegs (hafter.trans e) :)⟩
    · exact .inr (.inl ⟨m, rfl, dueTick_iff.mpr ⟨hh, hen, hperiod⟩, he, hafter.trans e⟩)
    · exact .inr (.inr ⟨m, rfl, dueTick_iff.mpr ⟨hh, hen, hperiod⟩, he, hafter.trans e⟩)
  | wNop _ | wEnq _ | wArm _ | wEnqArm _ | resetAssert | resetDeassert => cases hi

theorem dueTick_of_held (i : Instr) {s : State} (h : s.rHeld = true) : dueTick i s = false := by
  cases i <;> simp [dueTick, h]

theorem dueTick_of_format {i : Instr} (h : i.format ≠ .re) (s : State) : dueTick i s = false := by
  cases i with
  | rNop _ | rDeq _ | rcTick _ => exact absurd rfl h
  | wNop _ | wEnq _ | wArm _ | wEnqArm _ | resetAssert | resetDeassert => rfl

theorem takesUnderrun_of_not_due {i : Instr} {s : State} (h : dueTick i s = false) : takesUnderrun i s = false := by
  simp [takesUnderrun, h]

theorem takesUnderrun_of_visible {i : Instr} {s : State} (h : s.rEmpty = false) : takesUnderrun i s = false := by
  simp [takesUnderrun, h]

theorem takesUnderrun_of_empty {i : Instr} {s : State} (hdue : dueTick i s = true) (he : s.rEmpty = true) :
    takesUnderrun i s = true := by
  simp [takesUnderrun, hdue, he]

/-- R123: the frame's share of `EnableUpdate`. -/
theorem readFrame_enable {s : State} (hrc : s.cfg.hasRc = true) :
    (readFrame s).r.enable = if s.armView = true then true else s.r.enable := by
  simp [readFrame, hrc]

theorem readFrame_keeps_enable {s : State} (h : s.r.enable = true) : (readFrame s).r.enable = true := by
  simp [readFrame, h]

/-- R127: `ReportDefault`. -/
theorem readFrame_rptValid {s : State} (hrc : s.cfg.hasRc = true) : (readFrame s).r.rptValid = false := by
  simp [readFrame, hrc]

/-- Settles O24: the frame sets `enable`, a drain leaves it, and an underrun clears it. -/
theorem enableFollowsArmUnlessUnderrun : Obligations.EnableFollowsArmUnlessUnderrun := by
  intro s t i hrc hi hh hs
  rcases exec_read_companion_cases hs hi hh with ⟨hdue, hregs⟩ | ⟨m, -, -, he, rfl⟩ | ⟨m, -, hdue, he, rfl⟩
  · rw [takesUnderrun_of_not_due hdue, ← readFrame_enable hrc]
    exact congrArg CompanionRegs.enable hregs
  · rw [takesUnderrun_of_visible he, ← readFrame_enable hrc]
    rfl
  · rw [takesUnderrun_of_empty hdue he]
    rfl

/-- Settles O25: the frame lowers `rpt_valid` alone, and just the two branches of a due tick write the report. -/
theorem reportIsValidForOneEdge : Obligations.ReportIsValidForOneEdge := by
  intro s t i hrc hi hh hs
  have hports : t.readPorts.report = some ⟨t.r.rptValid, t.r.rptKind, t.r.rptData, t.r.rptPeriod⟩ :=
    if_pos ((exec_cfg hs).symm ▸ hrc)
  rcases exec_read_companion_cases hs hi hh with ⟨hdue, hregs⟩ | ⟨m, -, hdue, he, rfl⟩ | ⟨m, -, hdue, he, rfl⟩
  · have hvalid : t.r.rptValid = (readFrame s).r.rptValid := congrArg (·.report.rptValid) hregs
    have hdata : t.r.rptData = s.r.rptData := congrArg (·.report.rptData) hregs
    exact ⟨hvalid.trans ((readFrame_rptValid hrc).trans hdue.symm),
      fun _ => ⟨congrArg (·.report.rptKind) hregs, hdata, congrArg (·.report.rptPeriod) hregs⟩, fun _ => hdata, hports⟩
  · exact ⟨hdue.symm, fun hno => absurd (hdue.symm.trans hno) nofun,
      fun hu => absurd (hu.symm.trans (takesUnderrun_of_visible he)) nofun, hports⟩
  · exact ⟨hdue.symm, fun hno => absurd (hdue.symm.trans hno) nofun, fun _ => rfl, hports⟩

/-- Settles O41: the underrun branch on top of the frame, and the arm's set of `enable` at a later edge (O24). -/
theorem underrunDisarmsAndSlowsDown : Obligations.UnderrunDisarmsAndSlowsDown := by
  refine ⟨fun s m hrc hm hu => ?_, fun u v i hrc hi hh harm hno hs => ?_⟩
  · obtain ⟨hdue, he⟩ : dueTick (.rcTick m) s = true ∧ s.rEmpty = true := by simpa [takesUnderrun] using hu
    exact ⟨_, exec_rcTick_underrun hrc hm hdue he, rfl, rfl, rfl, rfl, rfl, rfl⟩
  · simpa [hno, harm] using enableFollowsArmUnlessUnderrun u v i hrc hi hh hs

/-- R128, R129: what an operation that is no reset assertion does to `consume_every`. -/
theorem exec_consumeEvery {i : Instr} {s t : State} (hs : exec i s = .next t) (hne : i ≠ .resetAssert) :
    t.r.consumeEvery =
      if takesUnderrun i s = true then nextConsumeEvery s.cfg s.r.consumeEvery else s.r.consumeEvery := by
  cases hi : i.format with
  | we =>
    rw [takesUnderrun_of_not_due (dueTick_of_format (by simp [hi]) s), (exec_next hs).2, (after_keeps_readSide hi s).1]
    rfl
  | sy =>
    obtain rfl := resetDeassert_of_format hi hne
    exact congrArg (·.r.consumeEvery) (exec_next hs).2
  | re =>
    cases hh : s.rHeld with
    | true =>
      rw [takesUnderrun_of_not_due (dueTick_of_held i hh), (exec_next hs).2, after_read_held hi hh]
      rfl
    | false =>
      rcases exec_read_companion_cases hs hi hh with ⟨hdue, hregs⟩ | ⟨m, -, -, he, rfl⟩ | ⟨m, -, hdue, he, rfl⟩
      · rw [takesUnderrun_of_not_due hdue]
        exact congrArg CompanionRegs.consumeEvery hregs
      · rw [takesUnderrun_of_visible he]
        rfl
      · rw [takesUnderrun_of_empty hdue he]
        rfl

/-- R129: a saturating successor is no less, within the width. -/
theorem le_nextConsumeEvery {c : Config} {n : Nat} (h : n < 2 ^ c.periodBits) : n ≤ nextConsumeEvery c n := by
  rw [nextConsumeEvery, sat]
  omega

/-- Settles O39: the step equation `exec_consumeEvery`; over a run `consume_every` grows and stays within its width. -/
theorem consumeEveryNeverDecreases : Obligations.ConsumeEveryNeverDecreases := by
  refine ⟨fun s t i _ hs hne => exec_consumeEvery hs hne, fun s t is hwidth hn hr => ?_⟩
  have hkeeps := run_keeps_noReset
    (Inv := fun u => s.r.consumeEvery ≤ u.r.consumeEvery ∧ u.r.consumeEvery < 2 ^ u.cfg.periodBits) ?_ hn
    ⟨le_rfl, hwidth⟩ hr
  · exact hkeeps.1
  · intro u v e i hne ⟨hle, hlt⟩ hs
    rw [exec_cfg hs, exec_consumeEvery hs hne]
    split
    · exact ⟨hle.trans (le_nextConsumeEvery hlt), nextConsumeEvery_lt _ _⟩
    · exact ⟨hle, hlt⟩

/-! ### The period between drains (R130) -/

/-- What a W-edge or an idle R-edge leaves of the countdown to a drain: all of it, and an arm can only set `enable`. -/
theorem exec_keeps_countdown {i : Instr} {s t : State} (hs : exec i s = .next t)
    (hi : i.format = .we ∨ ∃ m, i = .rNop m) :
    (s.r.enable = true → t.r.enable = true) ∧ t.r.consumeEvery = s.r.consumeEvery ∧ t.r.cycle = s.r.cycle ∧
      t.g.deqCount = s.g.deqCount ∧ t.g.consumed = s.g.consumed := by
  rcases exec_next_cases hs with ⟨-, -, rfl⟩ | ⟨-, -, -, rfl⟩ | ⟨d, -, -, -, rfl⟩ | ⟨d, -, -, -, rfl⟩ | ⟨-, -, rfl⟩ |
    ⟨m, -, -, rfl⟩ | ⟨m, rfl, -⟩ | ⟨m, rfl, -⟩ | ⟨m, rfl, -⟩ | ⟨rfl, -⟩ | ⟨rfl, -⟩
  · exact ⟨id, rfl, rfl, rfl, rfl⟩
  · exact ⟨id, rfl, rfl, rfl, rfl⟩
  · exact ⟨id, rfl, rfl, rfl, rfl⟩
  · exact ⟨id, rfl, rfl, rfl, rfl⟩
  · exact ⟨id, rfl, rfl, rfl, rfl⟩
  · exact ⟨readFrame_keeps_enable, rfl, rfl, rfl, rfl⟩
  all_goals rcases hi with hi | ⟨_, hi⟩ <;> cases hi

/-- R130: where a run of `k` ticks from `s` has got to, for `k` up to the period. -/
structure Countdown (m : Nat) (s : State) (k : Nat) (t : State) : Prop where
  cfg : t.cfg = s.cfg
  enable : t.r.enable = true
  consumeEvery : t.r.consumeEvery = s.r.consumeEvery
  waiting : k < s.r.consumeEvery + m → t.g.deqCount = s.g.deqCount ∧ t.g.consumed = s.g.consumed ∧ t.r.cycle = k
  drained : k = s.r.consumeEvery + m → t.g.deqCount = s.g.deqCount + 1 ∧ t.r.cycle = 0

theorem Countdown.withEnv {m k : Nat} {s t : State} (h : Countdown m s k t) (e : Environment) :
    Countdown m s k { t with env := e } := { h with }

theorem Countdown.other {m k : Nat} {s t u : State} {i : Instr} (h : Countdown m s k t)
    (hi : i.format = .we ∨ ∃ m', i = .rNop m') (hs : exec i t = .next u) : Countdown m s k u := by
  obtain ⟨hen, hce, hcycle, hdeq, hcons⟩ := exec_keeps_countdown hs hi
  exact { cfg := (exec_cfg hs).trans h.cfg
          enable := hen h.enable
          consumeEvery := hce.trans h.consumeEvery
          waiting := by rw [hdeq, hcons, hcycle]; exact h.waiting
          drained := by rw [hdeq, hcycle]; exact h.drained }

/-- R126, R130: a tick before the period counts, and the tick at the period drains. -/
theorem Countdown.tick {m k : Nat} {s t u : State} (h : Countdown m s k t) (hrc : s.cfg.hasRc = true)
    (hm : m < 2 ^ s.cfg.periodBits) (hwidth : s.r.consumeEvery < 2 ^ s.cfg.periodBits)
    (hk : k + 1 ≤ s.r.consumeEvery + m) (he : t.rEmpty = false) (hs : exec (.rcTick m) t = .next u) :
    Countdown m s (k + 1) u := by
  obtain ⟨hdeq, hcons, hcycle⟩ := h.waiting hk
  have hen := readFrame_keeps_enable h.enable
  rw [← h.cfg] at hrc hm hwidth
  rw [← h.consumeEvery] at hk hwidth
  rcases hk.lt_or_eq with hlt | heq
  · have hnext := (tickThatIsNotDueOnlyCounts t m hrc hm (not_held_of_visible he)).2 h.enable hwidth (hcycle.symm ▸ hlt)
    obtain rfl := Host.Outcome.next.inj (hs.symm.trans hnext)
    exact { cfg := h.cfg
            enable := hen
            consumeEvery := h.consumeEvery
            waiting := fun _ => ⟨hdeq, hcons, congrArg (· + 1) hcycle⟩
            drained := fun heq => absurd heq (h.consumeEvery ▸ hlt.ne) }
  · have hbound := effectivePeriod_lt hwidth hm
    have hdue := dueTick_of_elapsed (not_held_of_visible he) h.enable (by rw [hcycle, heq]; exact hbound)
      (by rw [hcycle, heq])
    obtain rfl := Host.Outcome.next.inj (hs.symm.trans (exec_rcTick_drain hrc hm hdue he))
    exact { cfg := h.cfg
            enable := hen
            consumeEvery := h.consumeEvery
            waiting := fun hlt => absurd heq (h.consumeEvery ▸ hlt.ne)
            drained := fun _ => ⟨congrArg (· + 1) hdeq, rfl⟩ }

/-- R130: a run of at most `per` ticks counts down. -/
theorem TickRun.countdown {m k : Nat} {s t : State} (hwf : s.Wf) (hrc : s.cfg.hasRc = true)
    (hm : m < 2 ^ s.cfg.periodBits) (hen : s.r.enable = true) (hcycle : s.r.cycle = 0) (hr : TickRun m s k t)
    (hk : k ≤ s.r.consumeEvery + m) : Countdown m s k t := by
  induction hr with
  | start =>
    have hpos := hwf.consumeEveryPos
    exact ⟨rfl, hen, rfl, fun _ => ⟨rfl, rfl, hcycle⟩, fun hzero => by omega⟩
  | other i e _ kind edge ih => exact ((ih hk).withEnv e).other kind edge
  | tick e _ visible edge ih =>
    exact ((ih (Nat.le_of_succ_le hk)).withEnv e).tick hrc hm hwf.consumeEvery hk visible edge

/-- Settles O40: both clauses are about at most `per` ticks. -/
theorem drainComesAtTheEffectivePeriod : Obligations.DrainComesAtTheEffectivePeriod :=
  fun _ _ _ _ hwf hrc hm hen hcycle hr =>
    ⟨fun hk => (hr.countdown hwf hrc hm hen hcycle hk.le).waiting hk,
      fun hk => (hr.countdown hwf hrc hm hen hcycle hk.le).drained hk⟩

/-! ### The reference producer (R132, R133, R134) -/

/-- R133: the producer idles, arms, or offers its record to a ring that is not full. -/
theorem offer_cases (s : State) (p : Producer) :
    p.offer s = .wNop 0 ∨ p.offer s = .wArm 0 ∨ (p.offer s = .wEnq p.next ∧ s.wFull = false) := by
  rw [Producer.offer]
  split
  · exact .inl rfl
  · split
    · exact .inr (.inl rfl)
    next hroom => exact .inr (.inr ⟨rfl, (Bool.or_eq_false_iff.mp (Bool.eq_false_iff.mpr hroom)).1⟩)

/-- R133: with its delay over the producer does as `PUSH_ARM`: while that waits it arms and keeps its record. -/
theorem producer_of_waits {s : State} {p : Producer} (hdelay : p.delay = 0) (hwaits : s.pushArmWaits = true)
    (delayDraw : Nat) : p.offer s = .wArm 0 ∧ p.advance s delayDraw = p := by
  simp [Producer.offer, Producer.advance, hdelay, hwaits]

/-- R132, R133, R134: else it enqueues its record and goes on to the next one after a delay. -/
theorem producer_of_room {s : State} {p : Producer} (hdelay : p.delay = 0) (hroom : s.pushArmWaits = false)
    (delayDraw : Nat) : p.offer s = .wEnq p.next ∧
      p.advance s delayDraw = { next := incMod s.cfg.dataBits p.next, delay := delayDraw % s.cfg.delayBound } := by
  simp [Producer.offer, Producer.advance, hdelay, hroom]

section ProducerEdge

variable {s : State} {delayDraw : Nat} {draws : Draws} {rest : List Stimulus}
  (hline : s.env.inputs = .producerEdge delayDraw draws :: rest)
include hline

theorem presented_producerEdge : s.presented =
    (lineOf s.cfg (s.env.producer.offer s) draws, rest, s.env.producer.advance s delayDraw) := by
  simp [State.presented, hline, nextLine]

theorem step_producerEdge : step s = exec (s.env.producer.offer s) s.loaded := by
  rw [step, presented_producerEdge hline]
  exact runLine_lineOf _ draws s.loaded

theorem loaded_producerEdge : s.loaded.env.producer = s.env.producer.advance s delayDraw := by
  rw [loaded_env_producer, presented_producerEdge hline]

/-- R133: the producer never offers a record to a full ring, so no edge of its raises `Overflow`. -/
theorem step_producerEdge_no_misuse {t : State} (hs : step s = .next t) :
    t.w.wOvf = s.w.wOvf ∧ t.g.misuses = s.g.misuses := by
  rw [step_producerEdge hline] at hs
  obtain ⟨-, rfl⟩ := exec_next hs
  rcases offer_cases s s.env.producer with hi | hi | ⟨hi, hroom⟩ <;> rw [hi]
  · obtain ⟨hovf, hg, -⟩ := wEdge_noOperation false s.loaded
    exact ⟨hovf, congrArg Observation.misuses hg⟩
  · obtain ⟨hovf, hg, -⟩ := wEdge_noOperation true s.loaded
    exact ⟨hovf, congrArg Observation.misuses hg⟩
  · rw [after_enqueue_room (.inl rfl) (show s.loaded.wFull = false from hroom)]
    exact ⟨rfl, rfl⟩

variable (hdelay : s.env.producer.delay = 0)
include hdelay

theorem step_producerEdge_absent (hrc : s.cfg.hasRc = false) : step s = .refused .absentPort := by
  have hwaits : s.pushArmWaits = true := by simp [State.pushArmWaits, hrc]
  rw [step_producerEdge hline, (producer_of_waits hdelay hwaits delayDraw).1]
  exact exec_absent (fits_zero _) hrc

theorem step_producerEdge_full (hrc : s.cfg.hasRc = true) (hfull : s.wFull = true) :
    ∃ t, step s = .next t ∧ t.g.accepted = s.g.accepted ∧ t.env.producer = s.env.producer ∧
      (s.wHeld = false → t.w.armQ = true) := by
  obtain ⟨hoffer, hadvance⟩ :=
    producer_of_waits hdelay ((pushArmWaits_of_companion hrc).trans hfull) delayDraw
  obtain ⟨-, hg, henv, harm⟩ := wEdge_noOperation true s.loaded
  have hstep : step s = .next (wEdge true noOperation s.loaded) := by
    rw [step_producerEdge hline, hoffer]
    exact exec_of_wellFormed (wellFormed_wArm_zero hrc)
  exact ⟨_, hstep, congrArg Observation.accepted hg,
    (congrArg Environment.producer henv).trans ((loaded_producerEdge hline).trans hadvance), harm hrc⟩

theorem step_producerEdge_room (hrc : s.cfg.hasRc = true) (hroom : s.wFull = false)
    (hnext : s.env.producer.next < 2 ^ s.cfg.dataBits) :
    ∃ t, step s = .next t ∧ t.g.accepted = s.g.accepted ++ [s.env.producer.next] ∧ t.env.producer =
      { next := incMod s.cfg.dataBits s.env.producer.next, delay := delayDraw % s.cfg.delayBound } := by
  obtain ⟨hoffer, hadvance⟩ :=
    producer_of_room hdelay ((pushArmWaits_of_companion hrc).trans hroom) delayDraw
  have hstep : step s = .next (after (.wEnq s.env.producer.next) s.loaded) := by
    rw [step_producerEdge hline, hoffer]
    exact exec_of_wellFormed (wellFormed_wEnq hnext)
  rw [after_enqueue_room (.inl rfl) (show s.loaded.wFull = false from hroom)] at hstep
  exact ⟨_, hstep, rfl, (loaded_producerEdge hline).trans hadvance⟩

end ProducerEdge

/-- Settles O57: what a producer's edge presents, in each state of its delay and of the flag. -/
theorem referenceProducerNeverOverflows : Obligations.ReferenceProducerNeverOverflows := by
  refine ⟨fun s t delayDraw draws rest hline hs => step_producerEdge_no_misuse hline hs,
    fun s delayDraw draws rest hline hdelay => ⟨step_producerEdge_absent hline hdelay,
      step_producerEdge_full hline hdelay, fun hrc hroom hnext hbound => ?_⟩⟩
  obtain ⟨t, hstep, haccepted, hproducer⟩ := step_producerEdge_room hline hdelay hrc hroom hnext
  exact ⟨t, hstep, haccepted, congrArg Producer.next hproducer, congrArg Producer.delay hproducer,
    hproducer ▸ Nat.mod_lt _ hbound⟩

end Sys2Proof.Machine

/-! The obligation of 60_exceptions.md: which operations raise a misuse, and what one leaves unchanged. An operation
that is no reset assertion raises `Overflow`, or raises `Underflow`, or keeps both sticky flags (`exec_misuse_cases`). -/

namespace Sys2Proof.Machine

/-! ### The operations that raise no misuse (R136, R137) -/

theorem raisesOverflow_of_no_request {i : Instr} (h : requestsEnqueue i = false) (s : State) :
    raisesOverflow i s = false := by
  simp [raisesOverflow, h]

theorem raisesOverflow_of_held (i : Instr) {s : State} (h : s.wHeld = true) : raisesOverflow i s = false := by
  simp [raisesOverflow, h]

theorem raisesOverflow_of_room (i : Instr) {s : State} (h : s.wFull = false) : raisesOverflow i s = false := by
  simp [raisesOverflow, h]

/-- R136: only an operation of the write domain overflows. -/
theorem raisesOverflow_of_format {i : Instr} (h : i.format ≠ .we) (s : State) : raisesOverflow i s = false :=
  raisesOverflow_of_no_request (requestsEnqueue_of_format h) s

theorem raisesUnderflow_of_held (i : Instr) {s : State} (h : s.rHeld = true) : raisesUnderflow i s = false := by
  cases i <;> simp [raisesUnderflow, h]

theorem raisesUnderflow_of_visible (i : Instr) {s : State} (h : s.rEmpty = false) : raisesUnderflow i s = false := by
  cases i <;> simp [raisesUnderflow, h]

/-- R137: only an operation of the read domain underflows. -/
theorem raisesUnderflow_of_format {i : Instr} (h : i.format ≠ .re) (s : State) : raisesUnderflow i s = false := by
  cases i with
  | rNop _ | rDeq _ | rcTick _ => exact absurd rfl h
  | wNop _ | wEnq _ | wArm _ | wEnqArm _ | resetAssert | resetDeassert => rfl

/-! ### The operations that raise one -/

theorem raisesOverflow_of_full {i : Instr} {s : State} {d : Nat} (hi : i = .wEnq d ∨ i = .wEnqArm d)
    (hh : s.wHeld = false) (hf : s.wFull = true) : raisesOverflow i s = true := by
  rcases hi with rfl | rfl <;> simp [raisesOverflow, requestsEnqueue, hh, hf]

theorem raisesUnderflow_of_empty {s : State} (hh : s.rHeld = false) (he : s.rEmpty = true) (m : Nat) :
    raisesUnderflow (.rDeq m) s = true := by
  simp [raisesUnderflow, hh, he]

/-! ### What an operation does to the sticky flags (R136, R137, R142) -/

/-- R131, R137: no branch of a tick raises `Underflow`, the underrun among them. -/
theorem tick_rUdf (m : Nat) (pre post : State) : (tick m pre post).r.rUdf = post.r.rUdf := by
  rcases tick_cases m pre post with ⟨-, e⟩ | ⟨-, -, e⟩ | ⟨-, -, -, e⟩ | ⟨-, -, -, e⟩ <;> rw [e] <;> rfl

/-- An operation that is no reset assertion raises a misuse on top of its domain's frame, or keeps both sticky flags. -/
theorem exec_misuse_cases {i : Instr} {s t : State} (hs : exec i s = .next t) (hne : i ≠ .resetAssert) :
    (raisesOverflow i s = true ∧ raisesUnderflow i s = false ∧ t = raise .overflow (writeFrame (armLevel i) s)) ∨
    (raisesOverflow i s = false ∧ raisesUnderflow i s = true ∧ t = raise .underflow (readFrame s)) ∨
    (raisesOverflow i s = false ∧ raisesUnderflow i s = false ∧ t.w.wOvf = s.w.wOvf ∧ t.r.rUdf = s.r.rUdf) := by
  rcases exec_next_cases hs with ⟨hi, hh, rfl⟩ | ⟨hi, -, hreq, rfl⟩ | ⟨d, hi, -, hf, rfl⟩ | ⟨d, hi, hh, hf, rfl⟩ |
    ⟨hi, hh, rfl⟩ | ⟨m, rfl, -, rfl⟩ | ⟨m, rfl, -, he, rfl⟩ | ⟨m, rfl, -, hh, he, rfl⟩ | ⟨m, rfl, -, -, -, rfl⟩ |
    ⟨rfl, -⟩ | ⟨rfl, rfl⟩
  · exact .inr (.inr ⟨raisesOverflow_of_held i hh, raisesUnderflow_of_format (by simp [hi]) s, rfl, rfl⟩)
  · exact .inr (.inr ⟨raisesOverflow_of_no_request hreq s, raisesUnderflow_of_format (by simp [hi]) s, rfl, rfl⟩)
  · have hno := raisesUnderflow_of_format (i := i) (by simp [format_of_enqueue hi]) s
    exact .inr (.inr ⟨raisesOverflow_of_room i hf, hno, rfl, rfl⟩)
  · have hno := raisesUnderflow_of_format (i := i) (by simp [format_of_enqueue hi]) s
    exact .inl ⟨raisesOverflow_of_full hi hh hf, hno, rfl⟩
  · exact .inr (.inr ⟨raisesOverflow_of_format (by simp [hi]) s, raisesUnderflow_of_held i hh, rfl, rfl⟩)
  · exact .inr (.inr ⟨rfl, rfl, rfl, rfl⟩)
  · exact .inr (.inr ⟨rfl, raisesUnderflow_of_visible _ he, rfl, rfl⟩)
  · exact .inr (.inl ⟨rfl, raisesUnderflow_of_empty hh he m, rfl⟩)
  · obtain ⟨hw, -⟩ := keepsWriteSide_tick m s (readFrame s)
    exact .inr (.inr ⟨rfl, rfl, congrArg WriteDomain.wOvf hw, tick_rUdf m s (readFrame s)⟩)
  · exact absurd rfl hne
  · exact .inr (.inr ⟨rfl, rfl, rfl, rfl⟩)

/-- Settles O36: a misuse sets its own flag on top of a frame, which moves no pointer and stores nothing; any other
operation but a reset assertion keeps both flags. -/
theorem stickyFlagsRecordMisuse : Obligations.StickyFlagsRecordMisuse := by
  refine ⟨fun s t i hs hne => ?_, fun s t hs => ?_⟩
  · rcases exec_misuse_cases hs hne with ⟨ho, hu, rfl⟩ | ⟨ho, hu, rfl⟩ | ⟨ho, hu, hovf, hudf⟩
    · exact ⟨by simp [ho], by simp [hu], fun _ => ⟨rfl, rfl, rfl, rfl, rfl, rfl, rfl, rfl, rfl, rfl⟩⟩
    · exact ⟨by simp [ho], by simp [hu], fun _ => ⟨rfl, rfl, rfl, rfl, rfl, rfl, rfl, rfl, rfl, rfl⟩⟩
    · exact ⟨by simp [ho, hovf], by simp [hu, hudf], by simp [ho, hu]⟩
  · obtain ⟨-, rfl⟩ := exec_next hs
    exact ⟨rfl, rfl⟩

end Sys2Proof.Machine

/-! The obligations of 70_reset_and_hazards.md: how far a published pointer or the arm has come through its synchroniser
after a number of edges (`Passage`), the reset synchronisers and what a held domain keeps (`DomainHold`), and the
progress of fair runs. What holds of both domains alike is said once, for any domain `dom`. -/

namespace Sys2Proof.Machine

/-! ### The passage of a value through a synchroniser (R163, R164, R165)

One edge of the destination moves every stage one place. The first edge may still sample the source's old value; from
the second on every sample has the property `p` that the source's present value has. -/

/-- A chain `n` edges after it was `start`: the samples of all edges but the first have the property `p`, every later
sample will have it if `settled` says so, and the stages from `n` on hold what `start` held. -/
structure Passage {α : Type} (p : α → Prop) (settled : Prop) (start : List α) (n : Nat) (chain : List α) : Prop where
  length : chain.length = start.length
  arrived : ∀ a ∈ chain.take (n - 1), p a
  settled : 1 ≤ n → settled
  remaining : ∀ a ∈ chain.drop n, a ∈ start

section Passage

variable {α : Type} {p : α → Prop} {settled settled' : Prop} {start chain : List α} {n : Nat}

theorem passage_start (p : α → Prop) (settled : Prop) (start : List α) : Passage p settled start 0 start where
  length := rfl
  arrived := by simp
  settled := by simp
  remaining := by simp

theorem mem_drop_shiftIn {v a : α} {l : List α} {k : Nat} (h : a ∈ (shiftIn v l).drop (k + 1)) : a ∈ l.drop k := by
  rw [shiftIn_eq_dropLast] at h
  exact ((List.dropLast_sublist (v :: l)).drop (k + 1)).subset h

theorem Passage.edge (h : Passage p settled start n chain) {v : α} (hv : settled → p v) (hs : settled') :
    Passage p settled' start (n + 1) (shiftIn v chain) where
  length := by rw [shiftIn_length, h.length]
  arrived a ha := by
    cases n with
    | zero => simp at ha
    | succ n =>
      rcases mem_take_shiftIn ha with rfl | ha
      · exact hv (h.settled (Nat.succ_pos n))
      · exact h.arrived a ha
  settled _ := hs
  remaining a ha := h.remaining a (mem_drop_shiftIn ha)

theorem Passage.other (h : Passage p settled start n chain) (hs : settled → settled') :
    Passage p settled' start n chain :=
  { h with settled := fun hn => hs (h.settled hn) }

theorem Passage.last_of_passed (h : Passage p settled start n chain) (hne : start ≠ []) (hn : start.length + 1 ≤ n)
    (d : α) : p (chain.getLastD d) := by
  have hlen := h.length
  have hpos := List.length_pos_iff.mpr hne
  refine h.arrived _ ?_
  rw [List.take_of_length_le (by omega)]
  exact getLastD_mem (List.ne_nil_of_length_pos (by omega)) d

theorem Passage.last_of_not_reached (h : Passage p settled start n chain) (hn : n < start.length) (d : α) :
    chain.getLastD d ∈ start := by
  have hlen : n < chain.length := h.length ▸ hn
  refine h.remaining _ ?_
  have hne : chain.drop n ≠ [] := by simp [hlen]
  rw [List.getLastD_eq_getLast?, List.getLast?_eq_getLast_of_ne_nil (List.ne_nil_of_length_pos (by omega)),
    Option.getD_some, ← List.getLast_drop hne]
  exact List.getLast_mem hne

end Passage

/-! ### The tags of a destination (R115) -/

/-- The least tag a capture of the pointer may sample. -/
def PublishedPointer.leastTag (p : PublishedPointer) : Nat := sampledTag p.dirty true p.count

theorem sampledTag_old_le (dirty old : Bool) (count : Nat) :
    sampledTag dirty true count ≤ sampledTag dirty old count := by
  cases dirty <;> cases old <;> simp [sampledTag]

theorem PublishedPointer.leastTag_of_clean {p : PublishedPointer} (h : p.dirty = false) : p.leastTag = p.count := by
  simp [PublishedPointer.leastTag, sampledTag, h]

theorem PointerStep.leastTag_le {c : Config} {accepts : Bool} {p p' : PublishedPointer}
    (h : PointerStep c accepts p p') : p.leastTag ≤ p'.leastTag := by
  have hle : p.leastTag ≤ p.count := sampledTag_le _ _ _
  cases h with
  | moved => simpa [PublishedPointer.leastTag, sampledTag] using hle
  | kept => exact le_rfl
  | captured => exact hle

/-- The ring invariant holds, with these tags for the stages of the domain `dom`. -/
def State.HasTags (s : State) : Domain → List Nat → Prop
  | .write, tags => ∃ rt, RingInv s tags rt
  | .read, tags => ∃ wt, RingInv s wt tags

/-- R117: the count a domain's view stands for. -/
def State.viewCount (s : State) : Domain → Nat
  | .write => s.cntWq
  | .read => s.cntRq

/-- R117: `cnt(wq[S])` is the last tag, `H`. -/
theorem RingInv.cntWq_eq {s : State} {wt rt : List Nat} (h : RingInv s wt rt) : s.cntWq = wt.getLastD 0 := by
  have hhead := h.head_le_deqCount
  have hseen := h.deqCount_le_tail
  have htail := h.tail_le_enqCount
  rw [State.cntWq, h.wLevel_eq]
  omega

theorem State.RingOk.exists_tags {s : State} (h : s.RingOk) (dom : Domain) : ∃ tags, s.HasTags dom tags := by
  obtain ⟨wt, rt, hring⟩ := h
  cases dom with
  | write => exact ⟨wt, rt, hring⟩
  | read => exact ⟨rt, wt, hring⟩

section Tags

variable {s t : State} {dom : Domain} {tags : List Nat}

theorem State.HasTags.withEnv (h : s.HasTags dom tags) (e : Environment) :
    ({ s with env := e } : State).HasTags dom tags := by
  cases dom with
  | write => exact h.imp fun _ hring => ring_withEnv hring e
  | read => exact h.imp fun _ hring => ring_withEnv hring e

theorem State.HasTags.ne_nil (h : s.HasTags dom tags) : tags ≠ [] := by
  cases dom with
  | write => exact h.choose_spec.wt_ne_nil
  | read => exact h.choose_spec.rt_ne_nil

theorem State.HasTags.length (h : s.HasTags dom tags) : tags.length = s.cfg.syncStages := by
  cases dom with
  | write => exact h.choose_spec.wqLength
  | read => exact h.choose_spec.rqLength

theorem State.HasTags.viewCount_eq (h : s.HasTags dom tags) : s.viewCount dom = tags.getLastD 0 := by
  cases dom with
  | write => exact h.choose_spec.cntWq_eq
  | read => exact h.choose_spec.cntRq_eq

theorem State.HasTags.ringOk (h : s.HasTags dom tags) : s.RingOk := by
  cases dom with
  | write => exact ⟨_, h⟩
  | read => exact h.imp fun _ hring => ⟨_, hring⟩

variable {i : Instr} (h : s.HasTags dom tags) (hs : exec i s = .next t) (hne : i ≠ .resetAssert)
include h hs hne

/-- R115: an edge of a released destination shifts a tag into its stages that is no less than the least one. -/
theorem State.HasTags.edge (hrel : s.Released dom) (hi : i.format = edgeFormat dom) :
    ∃ v, (s.source dom).leastTag ≤ v ∧ t.HasTags dom (shiftIn v tags) := by
  cases dom with
  | write =>
    obtain ⟨rt, hring⟩ := h
    have hring' := exec_keeps_ring hring hs hne
    rw [nextWt, if_pos ⟨hi, not_held_of_writeReleased hrel⟩] at hring'
    exact ⟨_, sampledTag_old_le _ _ _, _, hring'⟩
  | read =>
    obtain ⟨wt, hring⟩ := h
    have hring' := exec_keeps_ring hring hs hne
    rw [nextRt_released hi (not_held_of_readReleased hrel)] at hring'
    exact ⟨_, sampledTag_old_le _ _ _, _, hring'⟩

theorem State.HasTags.other (hi : i.format ≠ edgeFormat dom) : t.HasTags dom tags := by
  cases dom with
  | write =>
    obtain ⟨rt, hring⟩ := h
    have hring' := exec_keeps_ring hring hs hne
    rw [nextWt, if_neg fun hedge => hi hedge.1] at hring'
    exact ⟨_, hring'⟩
  | read =>
    obtain ⟨wt, hring⟩ := h
    have hring' := exec_keeps_ring hring hs hne
    rw [nextRt_other hi] at hring'
    exact ⟨_, hring'⟩

end Tags

/-! ### Latencies of the pointers (R163, R164) -/

/-- The edges of a domain in a run. -/
def edgesOf (dom : Domain) (is : List Instr) : Nat := is.countP fun i => i.format == edgeFormat dom

theorem edgesOf_cons_edge {dom : Domain} {i : Instr} (hi : i.format = edgeFormat dom) (is : List Instr) :
    edgesOf dom (i :: is) = edgesOf dom is + 1 := by simp [edgesOf, hi]

theorem edgesOf_cons_other {dom : Domain} {i : Instr} (hi : i.format ≠ edgeFormat dom) (is : List Instr) :
    edgesOf dom (i :: is) = edgesOf dom is := by simp [edgesOf, hi]

/-- The first `E` operations accepted at the source of `dom` on their way to its view, `n` edges of `dom` after its tags
were `start`. -/
structure CountPassage (E : Nat) (start : List Nat) (dom : Domain) (n : Nat) (s : State) (tags : List Nat) : Prop where
  hasTags : s.HasTags dom tags
  released : s.Released dom
  counted : E ≤ (s.source dom).count
  passage : Passage (E ≤ ·) (E ≤ (s.source dom).leastTag) start n tags

section CountPassage

variable {E n : Nat} {start tags : List Nat} {dom : Domain} {s t : State} {i : Instr}
  (h : CountPassage E start dom n s tags)
include h

theorem CountPassage.withEnv (e : Environment) : CountPassage E start dom n { s with env := e } tags :=
  have hsource : ({ s with env := e } : State).source dom = s.source dom := by cases dom <;> rfl
  { hasTags := h.hasTags.withEnv e
    released := by cases dom <;> exact h.released
    counted := hsource ▸ h.counted
    passage := hsource ▸ h.passage }

variable (hs : exec i s = .next t) (hne : i ≠ .resetAssert)
include hs hne

/-- R110, R115: an edge of the destination captures its source, which then stands clean. -/
theorem CountPassage.edge (hi : i.format = edgeFormat dom) : ∃ tags', CountPassage E start dom (n + 1) t tags' := by
  obtain ⟨v, hv, htags⟩ := h.hasTags.edge hs hne h.released hi
  obtain ⟨_, hstep⟩ := exec_source (dom := dom) hs hne
  obtain ⟨hclean, -⟩ := exec_shifts_stages hs h.released hi
  have hcounted := h.counted.trans hstep.count_le
  exact ⟨_, htags, exec_keeps_released hs hne h.released, hcounted,
    h.passage.edge (·.trans hv) (hcounted.trans_eq (PublishedPointer.leastTag_of_clean hclean).symm)⟩

theorem CountPassage.other (hi : i.format ≠ edgeFormat dom) : CountPassage E start dom n t tags := by
  obtain ⟨_, hstep⟩ := exec_source (dom := dom) hs hne
  exact ⟨h.hasTags.other hs hne hi, exec_keeps_released hs hne h.released, h.counted.trans hstep.count_le,
    h.passage.other (·.trans hstep.leastTag_le)⟩

end CountPassage

theorem CountPassage.run {E n : Nat} {start tags : List Nat} {dom : Domain} {s t : State} {is : List Instr}
    (h : CountPassage E start dom n s tags) (hn : NoReset is) (hr : Run s is t) :
    ∃ tags', CountPassage E start dom (n + edgesOf dom is) t tags' := by
  induction hr generalizing n tags with
  | done s => exact ⟨tags, h⟩
  | @more s t u i is e first rest ih =>
    simp only [NoReset, List.mem_cons, not_or] at hn
    obtain ⟨hne, hn⟩ := hn
    by_cases hi : i.format = edgeFormat dom
    · obtain ⟨tags', h'⟩ := (h.withEnv e).edge first (Ne.symm hne) hi
      rw [edgesOf_cons_edge hi, Nat.add_comm _ 1, ← Nat.add_assoc]
      exact ih h' hn
    · rw [edgesOf_cons_other hi]
      exact ih ((h.withEnv e).other first (Ne.symm hne) hi) hn

/-- R163, R164, for either destination: the view has counted what its source accepted after `S + 1` edges, and not
before `S` edges what no stage has counted yet. -/
theorem run_passage {dom : Domain} {s t : State} {is : List Instr} {tags : List Nat} (htags : s.HasTags dom tags)
    (hrel : s.Released dom) (hn : NoReset is) (hr : Run s is t) :
    t.RingOk ∧ t.Released dom ∧
    (s.cfg.syncStages + 1 ≤ edgesOf dom is → (s.source dom).count ≤ t.viewCount dom) ∧
    ((∀ tag ∈ tags, tag < (s.source dom).count) → edgesOf dom is < s.cfg.syncStages →
      t.viewCount dom < (s.source dom).count) := by
  obtain ⟨tags', h⟩ := CountPassage.run ⟨htags, hrel, le_rfl, passage_start _ _ _⟩ hn hr
  rw [Nat.zero_add] at h
  rw [← htags.length, h.hasTags.viewCount_eq]
  exact ⟨h.hasTags.ringOk, h.released, fun hedges => h.passage.last_of_passed htags.ne_nil hedges 0,
    fun hfresh hedges => hfresh _ (h.passage.last_of_not_reached hedges 0)⟩

/-- R163: a released read domain that has counted a record not yet consumed shows it. -/
theorem visible_of_counted {s : State} {E : Nat} (hok : s.RingOk) (hrel : s.ReadReleased) (hcounted : E ≤ s.cntRq)
    (hleft : s.g.deqCount < E) : s.rEmpty = false := by
  obtain ⟨wt, rt, h⟩ := hok
  exact (h.visible_iff (not_held_of_readReleased hrel)).mpr (h.cntRq_eq ▸ hleft.trans_le hcounted)

/-- R164: a released write domain that has counted a slot released has room, unless other records fill it. -/
theorem room_of_counted {s : State} {D : Nat} (hok : s.RingOk) (hrel : s.WriteReleased) (hcounted : D ≤ s.cntWq)
    (hroom : s.g.enqCount < D + s.cfg.capacity) : s.wFull = false := by
  obtain ⟨wt, rt, h⟩ := hok
  rw [← Bool.not_eq_true, h.wFull_iff_room (not_held_of_writeReleased hrel)]
  have hslots := two_le_slots h.cfg
  rw [h.cntWq_eq] at hcounted
  rw [Config.capacity] at hroom
  omega

/-- Settles O51: the passage of the accepted records into the read domain's view. -/
theorem enqueueIsVisibleInTime : Obligations.EnqueueIsVisibleInTime := by
  intro s t is wt rt hring hrel hn hr
  obtain ⟨hok, hrel', hlatest, hearliest⟩ := run_passage (dom := .read) ⟨wt, hring⟩ hrel hn hr
  exact ⟨hlatest, hearliest, visible_of_counted hok hrel'⟩

/-- Settles O52: the passage of the released slots into the write domain's view. -/
theorem dequeueIsReleasedInTime : Obligations.DequeueIsReleasedInTime := by
  intro s t is wt rt hring hrel hn hr
  obtain ⟨hok, hrel', hlatest, hearliest⟩ := run_passage (dom := .write) ⟨rt, hring⟩ hrel hn hr
  refine ⟨hlatest, hearliest, fun hcounted hroom => room_of_counted hok hrel' hcounted ?_⟩
  rwa [run_cfg hr]

/-! ### Latency of the arm (R165) -/

/-- R120: every W-edge that is not held leaves the arm to the frame. -/
theorem exec_arm_as_writeFrame {i : Instr} {s t : State} (hs : exec i s = .next t) (hi : i.format = .we)
    (hh : s.wHeld = false) :
    t.w.armQ = (writeFrame (armLevel i) s).w.armQ ∧ t.x.armDirty = (writeFrame (armLevel i) s).x.armDirty := by
  rcases exec_next_cases hs with ⟨-, hheld, -⟩ | ⟨-, -, -, rfl⟩ | ⟨d, -, -, -, rfl⟩ | ⟨d, -, -, -, rfl⟩ | ⟨hre, -⟩ |
    ⟨m, rfl, -⟩ | ⟨m, rfl, -⟩ | ⟨m, rfl, -⟩ | ⟨m, rfl, -⟩ | ⟨rfl, -⟩ | ⟨rfl, -⟩
  · exact absurd (hheld.symm.trans hh) nofun
  · exact ⟨rfl, rfl⟩
  · exact ⟨rfl, rfl⟩
  · exact ⟨rfl, rfl⟩
  · exact absurd (hre.symm.trans hi) nofun
  all_goals cases hi

/-- R120: a W-edge that presents the arm while it stands leaves it as it is, with no new change to capture. -/
theorem exec_keeps_arm {i : Instr} {s t : State} (hs : exec i s = .next t) (hi : i.format = .we)
    (harm : armLevel i = true) (harmed : s.w.armQ = true) : t.w.armQ = true ∧ t.x.armDirty = s.x.armDirty := by
  cases hh : s.wHeld with
  | true =>
    obtain ⟨-, rfl⟩ := exec_next hs
    rw [after_write_held hi hh]
    exact ⟨harmed, rfl⟩
  | false =>
    obtain ⟨hq, hdirty⟩ := exec_arm_as_writeFrame hs hi hh
    rw [hq, hdirty]
    simp [writeFrame, harm, harmed]

/-- The held arm on its way to `enable`, `n` R-edges after its stages were `start` and `enable` was `enabled`. -/
structure ArmPassage (start : List Bool) (enabled : Bool) (n : Nat) (s : State) : Prop where
  companion : s.cfg.hasRc = true
  released : s.ReadReleased
  armed : s.w.armQ = true
  passage : Passage (· = true) (s.x.armDirty = false) start n s.r.armS
  notSet : (∀ b ∈ start, b = false) → n ≤ start.length → s.r.enable = true → enabled = true

section ArmPassage

variable {start : List Bool} {enabled : Bool} {n : Nat} {s t : State} {i : Instr}
  (h : ArmPassage start enabled n s)
include h

theorem ArmPassage.withEnv (e : Environment) : ArmPassage start enabled n { s with env := e } := { h with }

theorem ArmPassage.armView_of_passed (hne : start ≠ []) (hn : start.length + 1 ≤ n) : s.armView = true :=
  h.passage.last_of_passed hne hn false

theorem ArmPassage.armView_of_not_reached (hlow : ∀ b ∈ start, b = false) (hn : n < start.length) :
    s.armView = false :=
  hlow _ (h.passage.last_of_not_reached hn false)

variable (hs : exec i s = .next t)
include hs

/-- R122, R123: an R-edge captures the arm, and `enable` takes the last stage from before it. -/
theorem ArmPassage.edge (hi : i.format = .re) : ArmPassage start enabled (n + 1) t := by
  have hh := not_held_of_readReleased h.released
  have hne : i ≠ .resetAssert := by rintro rfl; cases hi
  obtain ⟨-, hafter⟩ := exec_next hs
  obtain ⟨hw, -⟩ := after_keeps_writeSide hi s
  obtain ⟨hstages, hclean⟩ := exec_syncs_arm hs hi hh h.companion
  have henable := enableFollowsArmUnlessUnderrun s t i h.companion hi hh hs
  refine ⟨(exec_cfg hs).symm ▸ h.companion, exec_keeps_readReleased hne h.released hs, ?_, ?_, fun hlow hn hset => ?_⟩
  · rw [hafter, hw]
    exact h.armed
  · rw [hstages]
    refine h.passage.edge (fun hsettled => ?_) hclean
    rw [if_neg fun hold => Bool.false_ne_true (hsettled.symm.trans hold.1)]
    exact h.armed
  · rw [h.armView_of_not_reached hlow hn, if_neg Bool.false_ne_true] at henable
    rw [henable] at hset
    split at hset
    · cases hset
    · exact h.notSet hlow (Nat.le_of_succ_le hn) hset

/-- R120: no other operation moves the arm's stages or `enable`. -/
theorem ArmPassage.other (hi : i.format ≠ .re) (hne : i ≠ .resetAssert) (harm : i.format = .we → armLevel i = true) :
    ArmPassage start enabled n t := by
  have hkeep : t.w.armQ = true ∧ t.x.armDirty = s.x.armDirty ∧ t.r = s.r := by
    obtain ⟨-, hafter⟩ := exec_next hs
    cases hf : i.format with
    | we =>
      obtain ⟨hq, hdirty⟩ := exec_keeps_arm hs hf (harm hf) h.armed
      exact ⟨hq, hdirty, hafter ▸ (after_keeps_readSide hf s).1⟩
    | re => exact absurd hf hi
    | sy =>
      obtain rfl := resetDeassert_of_format hf hne
      exact hafter ▸ ⟨h.armed, rfl, rfl⟩
  obtain ⟨harmed, hdirty, hr⟩ := hkeep
  exact
    { companion := (exec_cfg hs).symm ▸ h.companion
      released := exec_keeps_readReleased hne h.released hs
      armed := harmed
      passage := by rw [hdirty, hr]; exact h.passage
      notSet := hr.symm ▸ h.notSet }

end ArmPassage

theorem ArmPassage.run {start : List Bool} {enabled : Bool} {n : Nat} {s t : State} {is : List Instr}
    (h : ArmPassage start enabled n s) (hn : NoReset is) (harm : ∀ i ∈ is, i.format = .we → armLevel i = true)
    (hr : Run s is t) : ArmPassage start enabled (n + rEdges is) t := by
  induction hr generalizing n with
  | done s => exact h
  | @more s t u i is e first rest ih =>
    simp only [NoReset, List.mem_cons, not_or] at hn
    obtain ⟨hne, hn⟩ := hn
    obtain ⟨harmFirst, harmRest⟩ := List.forall_mem_cons.mp harm
    by_cases hi : i.format = .re
    · have hcount : rEdges (i :: is) = rEdges is + 1 := edgesOf_cons_edge (dom := .read) hi is
      rw [hcount, Nat.add_comm _ 1, ← Nat.add_assoc]
      exact ih ((h.withEnv e).edge first hi) hn harmRest
    · have hcount : rEdges (i :: is) = rEdges is := edgesOf_cons_other (dom := .read) hi is
      rw [hcount]
      exact ih ((h.withEnv e).other first hi (Ne.symm hne) harmFirst) hn harmRest

theorem armPassage_start {s : State} (hrc : s.cfg.hasRc = true) (hrel : s.ReadReleased) (harmed : s.w.armQ = true) :
    ArmPassage s.r.armS s.r.enable 0 s :=
  ⟨hrc, hrel, harmed, passage_start _ _ _, fun _ _ hset => hset⟩

/-- Settles O54: the passage of the held arm, and the edge after it (O24). -/
theorem armReachesEnableInTime : Obligations.ArmReachesEnableInTime := by
  intro s t is hwf hrc hrel harmed hn harm hr
  have harm' : ∀ i ∈ is, i.format = .we → armLevel i = true := fun i hmem hi => by
    obtain ⟨d, rfl | rfl⟩ := harm i hmem hi <;> rfl
  have h := (armPassage_start hrc hrel harmed).run hn harm' hr
  rw [Nat.zero_add] at h
  rw [← hwf.armSLength]
  refine ⟨fun hedges => ?_, h.armView_of_not_reached, fun hlow hoff hedges => ?_⟩
  · have hview := h.armView_of_passed (chain_ne_nil hwf.cfg hwf.armSLength) hedges
    refine ⟨hview, fun e i u hi hno hs => ?_⟩
    have henable := enableFollowsArmUnlessUnderrun { t with env := e } u i h.companion hi
      (not_held_of_readReleased h.released) hs
    simpa [hno, hview] using henable
  · exact Bool.eq_false_iff.mpr fun hset => nomatch hoff.symm.trans (h.notSet hlow hedges hset)

/-! ### The reset synchronisers (R40, R152) -/

/-- R40: the reset synchroniser of a domain. -/
def State.resetChain (s : State) : Domain → List Bool
  | .write => s.w.wRs
  | .read => s.r.rRs

/-- R40: `w_held` and `r_held`. -/
def State.held (s : State) : Domain → Bool
  | .write => s.wHeld
  | .read => s.rHeld

theorem held_eq (s : State) (dom : Domain) : s.held dom = (s.resetChain dom).getLastD false := by cases dom <;> rfl

theorem released_iff {s : State} {dom : Domain} :
    s.Released dom ↔ s.rstIn = false ∧ ∀ b ∈ s.resetChain dom, b = false := by
  cases dom <;> exact Iff.rfl

theorem not_held_of_released {s : State} {dom : Domain} (h : s.Released dom) : s.held dom = false := by
  rw [held_eq]
  exact getLastD_of_forall (p := (· = false)) rfl (released_iff.mp h).2

theorem rstStages_pos {c : Config} (h : c.wf = true) : 0 < c.rstStages := by
  simp only [Config.wf, Bool.and_eq_true, decide_eq_true_eq] at h
  omega

theorem releasingChain_last (n k : Nat) : (releasingChain n (min n k)).getLastD false = true ↔ k < n := by
  rcases Nat.lt_or_ge k n with hlt | hge
  · rw [Nat.min_eq_right hlt.le]
    exact iff_of_true (releasingChain_held hlt) hlt
  · rw [Nat.min_eq_left hge, releasingChain_self]
    refine iff_of_false (Bool.eq_false_iff.mp ?_) hge.not_gt
    exact getLastD_of_forall (p := (· = false)) rfl fun _ => List.eq_of_mem_replicate

/-- R152: an edge after the deassertion; a chain of zeros stays so. -/
theorem shiftIn_releasingChain_min (n k : Nat) :
    shiftIn false (releasingChain n (min n k)) = releasingChain n (min n (k + 1)) := by
  rcases Nat.lt_or_ge k n with hlt | hge
  · rw [Nat.min_eq_right hlt.le, Nat.min_eq_right hlt, shiftIn_releasingChain hlt]
  · rw [Nat.min_eq_left hge, Nat.min_eq_left (by omega), releasingChain_self, shiftIn_replicate]

/-! ### What an operation does to a domain's reset synchroniser and to `rst_in` -/

section ResetStep

variable {i : Instr} {s t : State} (hs : exec i s = .next t)
include hs

/-- R150, R151: only a reset event writes `rst_in`. -/
theorem exec_rstIn (hi : i.format ≠ .sy) : t.rstIn = s.rstIn := by
  obtain ⟨-, rfl⟩ := exec_next hs
  cases hf : i.format with
  | we =>
    obtain ⟨-, hrst, -⟩ := after_keeps_readSide hf s
    exact hrst
  | re =>
    obtain ⟨-, -, -, hrst, -⟩ := after_keeps_writeSide hf s
    exact hrst
  | sy => exact absurd hf hi

/-- R40: every edge of a domain shifts its reset synchroniser, held or not. -/
theorem exec_shifts_resetChain {dom : Domain} (hi : i.format = edgeFormat dom) :
    t.resetChain dom = shiftIn s.rstIn (s.resetChain dom) := by
  have hafter := (exec_next hs).2
  cases dom with
  | write => exact hafter ▸ after_write_wRs hi s
  | read =>
    cases hh : s.rHeld with
    | true => rw [hafter, after_read_held hi hh]; rfl
    | false =>
      obtain ⟨hchain, -⟩ := exec_syncs_as_readFrame hs hi hh
      exact hchain

variable (hne : i ≠ .resetAssert)
include hne

theorem exec_rstIn_le (hrst : t.rstIn = true) : s.rstIn = true := by
  by_cases hi : i.format = .sy
  · obtain rfl := resetDeassert_of_format hi hne
    obtain ⟨-, rfl⟩ := exec_next hs
    cases hrst
  · rwa [exec_rstIn hs hi] at hrst

theorem exec_rstIn_low (hrst : s.rstIn = false) : t.rstIn = false :=
  Bool.eq_false_iff.mpr fun hhigh => nomatch hrst.symm.trans (exec_rstIn_le hs hne hhigh)

/-- R60: only a W-edge or a reset assertion writes the write domain's registers. -/
theorem exec_keeps_w (hi : i.format ≠ .we) : t.w = s.w := by
  obtain ⟨-, rfl⟩ := exec_next hs
  cases hf : i.format with
  | we => exact absurd hf hi
  | re => exact (after_keeps_writeSide hf s).1
  | sy =>
    obtain rfl := resetDeassert_of_format hf hne
    rfl

/-- R60: only an R-edge or a reset assertion writes the read domain's registers. -/
theorem exec_keeps_r (hi : i.format ≠ .re) : t.r = s.r := by
  obtain ⟨-, rfl⟩ := exec_next hs
  cases hf : i.format with
  | we => exact (after_keeps_readSide hf s).1
  | re => exact absurd hf hi
  | sy =>
    obtain rfl := resetDeassert_of_format hf hne
    rfl

theorem exec_keeps_resetChain {dom : Domain} (hi : i.format ≠ edgeFormat dom) :
    t.resetChain dom = s.resetChain dom := by
  cases dom with
  | write => exact congrArg WriteDomain.wRs (exec_keeps_w hs hne hi)
  | read => exact congrArg ReadDomain.rRs (exec_keeps_r hs hne hi)

end ResetStep

/-- R152: after a deassertion the synchroniser takes one zero per edge of its domain. -/
theorem run_resetChain {s t : State} {is : List Instr} {dom : Domain} {k : Nat} (hrst : s.rstIn = false)
    (hchain : s.resetChain dom = releasingChain s.cfg.rstStages (min s.cfg.rstStages k)) (hn : NoReset is)
    (hr : Run s is t) :
    t.rstIn = false ∧
      t.resetChain dom = releasingChain s.cfg.rstStages (min s.cfg.rstStages (k + edgesOf dom is)) := by
  induction hr generalizing k with
  | done s => exact ⟨hrst, hchain⟩
  | @more s t u i is e first rest ih =>
    simp only [NoReset, List.mem_cons, not_or] at hn
    obtain ⟨hne, hn⟩ := hn
    have hcfg : t.cfg = s.cfg := exec_cfg (s := { s with env := e }) first
    have hlow : t.rstIn = false := exec_rstIn_low first (Ne.symm hne) hrst
    have henv : ({ s with env := e } : State).resetChain dom = s.resetChain dom := by cases dom <;> rfl
    rw [hcfg] at ih
    by_cases hi : i.format = edgeFormat dom
    · have hshift := exec_shifts_resetChain first hi
      rw [henv, withEnv_rstIn, hrst, hchain, shiftIn_releasingChain_min] at hshift
      rw [edgesOf_cons_edge hi, Nat.add_comm _ 1, ← Nat.add_assoc]
      exact ih hlow hshift hn
    · rw [edgesOf_cons_other hi]
      exact ih hlow ((exec_keeps_resetChain first (Ne.symm hne) hi).trans (henv.trans hchain)) hn

/-- R152: a domain whose synchroniser is all ones when `rst` is low is held for just `SR` of its edges. -/
theorem held_after_run_iff {s t : State} {is : List Instr} {dom : Domain} (hrst : s.rstIn = false)
    (hchain : s.resetChain dom = List.replicate s.cfg.rstStages true) (hn : NoReset is) (hr : Run s is t) :
    t.held dom = true ↔ edgesOf dom is < s.cfg.rstStages := by
  have hstart : s.resetChain dom = releasingChain s.cfg.rstStages (min s.cfg.rstStages 0) := by
    rw [hchain, Nat.min_zero]
    rfl
  obtain ⟨-, hchain'⟩ := run_resetChain hrst hstart hn hr
  rw [held_eq, hchain', releasingChain_last, Nat.zero_add]

/-- Settles O29: each domain's edges shift the deasserted level through its own synchroniser. -/
theorem releaseAfterExactlySrEdges : Obligations.ReleaseAfterExactlySrEdges := fun _ _ _ _ hrst hw hr hn hrun =>
  ⟨held_after_run_iff (dom := .write) hrst hw hn hrun, held_after_run_iff (dom := .read) hrst hr hn hrun⟩

/-! ### What a held domain keeps (R113, R150) -/

/-- R49: a domain's registers, its reset synchroniser apart, stand at their reset values. -/
def State.AtReset (s : State) : Domain → Prop
  | .write => s.w = { WriteDomain.afterReset s.cfg with wRs := s.w.wRs }
  | .read => s.r = { ReadDomain.afterReset s.cfg with rRs := s.r.rRs }

/-- What the reset invariant says of one domain. -/
structure DomainHold (s : State) (dom : Domain) : Prop where
  chain : ∃ j ≤ s.cfg.rstStages, s.resetChain dom = releasingChain s.cfg.rstStages j
  asserted : s.rstIn = true → s.resetChain dom = List.replicate s.cfg.rstStages true
  atReset : s.held dom = true → s.AtReset dom

theorem holdInv_iff {s : State} : HoldInv s ↔ s.cfg.wf = true ∧ ∀ dom, DomainHold s dom where
  mp h := ⟨h.cfg, fun dom =>
    match dom with
    | .write => ⟨h.wChain, fun hrst => (h.asserted hrst).1, h.wHeldAtReset⟩
    | .read => ⟨h.rChain, fun hrst => (h.asserted hrst).2, h.rHeldAtReset⟩⟩
  mpr h :=
    have hw := h.2 .write
    have hr := h.2 .read
    ⟨h.1, hw.chain, hr.chain, fun hrst => ⟨hw.asserted hrst, hr.asserted hrst⟩, hw.atReset, hr.atReset⟩

section DomainHold

variable {s : State} {dom : Domain} (h : DomainHold s dom) (hcfg : s.cfg.wf = true)
include h hcfg

theorem DomainHold.held_of_asserted (hrst : s.rstIn = true) : s.held dom = true := by
  rw [held_eq, h.asserted hrst]
  exact releasingChain_held (rstStages_pos hcfg)

/-- R152: a domain that is not held is released for good: its chain has no 1 left. -/
theorem DomainHold.released (hh : s.held dom = false) : s.Released dom := by
  refine released_iff.mpr ⟨Bool.eq_false_iff.mpr fun hrst => ?_, ?_⟩
  · exact nomatch hh.symm.trans (h.held_of_asserted hcfg hrst)
  · obtain ⟨j, hj, hchain⟩ := h.chain
    rcases hj.lt_or_eq with hlt | rfl
    · rw [held_eq, hchain, releasingChain_held hlt] at hh
      cases hh
    · rw [hchain, releasingChain_self]
      exact fun _ => List.eq_of_mem_replicate

end DomainHold

theorem domainHold_resetAll (s : State) (dom : Domain) : DomainHold (resetAll s) dom := by
  cases dom <;> exact ⟨⟨0, Nat.zero_le _, rfl⟩, fun _ => rfl, fun _ => rfl⟩

section HoldStep

variable {i : Instr} {s t : State} {dom : Domain} (hs : exec i s = .next t)
include hs

/-- R88, R96, R113: a held edge moves nothing of its domain but the reset synchroniser. -/
theorem exec_keeps_atReset (hi : i.format = edgeFormat dom) (hh : s.held dom = true) (h : s.AtReset dom) :
    t.AtReset dom := by
  obtain ⟨-, rfl⟩ := exec_next hs
  cases dom with
  | write =>
    rw [after_write_held hi hh]
    exact congrArg (fun w : WriteDomain => { w with wRs := shiftIn s.rstIn s.w.wRs }) h
  | read =>
    rw [after_read_held hi hh]
    exact congrArg (fun r : ReadDomain => { r with rRs := shiftIn s.rstIn s.r.rRs }) h

theorem exec_edge_keeps_domainHold (hcfg : s.cfg.wf = true) (h : DomainHold s dom) (hi : i.format = edgeFormat dom) :
    DomainHold t dom := by
  have hne : i ≠ .resetAssert := by rintro rfl; cases dom <;> cases hi
  have hsy : i.format ≠ .sy := by rw [hi]; cases dom <;> nofun
  have hshift := exec_shifts_resetChain hs hi
  have hasserted : s.rstIn = true → t.resetChain dom = List.replicate s.cfg.rstStages true := fun hrst => by
    rw [hshift, h.asserted hrst, hrst, shiftIn_replicate]
  have hsame := exec_cfg hs
  refine ⟨?_, fun hrst => ?_, fun hheld => ?_⟩
  · rw [hsame]
    cases hrst : s.rstIn with
    | true => exact ⟨0, Nat.zero_le _, hasserted hrst⟩
    | false =>
      obtain ⟨j, hj, hchain⟩ := h.chain
      refine ⟨min s.cfg.rstStages (j + 1), Nat.min_le_left _ _, ?_⟩
      rw [hshift, hrst, hchain, ← shiftIn_releasingChain_min, Nat.min_eq_right hj]
  · rw [hsame]
    exact hasserted (exec_rstIn hs hsy ▸ hrst)
  · cases hh : s.held dom with
    | true => exact exec_keeps_atReset hs hi hh (h.atReset hh)
    | false =>
      have hreleased := exec_keeps_released hs hne (h.released hcfg hh)
      exact nomatch hheld.symm.trans (not_held_of_released hreleased)

theorem exec_other_keeps_domainHold (h : DomainHold s dom) (hne : i ≠ .resetAssert) (hi : i.format ≠ edgeFormat dom) :
    DomainHold t dom := by
  have hchain := exec_keeps_resetChain hs hne hi
  have hcfg := exec_cfg hs
  refine ⟨?_, fun hrst => ?_, fun hheld => ?_⟩
  · rw [hchain, hcfg]
    exact h.chain
  · rw [hchain, hcfg]
    exact h.asserted (exec_rstIn_le hs hne hrst)
  · have hreset := h.atReset (by rwa [held_eq, hchain, ← held_eq] at hheld)
    cases dom with
    | write =>
      rw [State.AtReset, exec_keeps_w hs hne hi, hcfg]
      exact hreset
    | read =>
      rw [State.AtReset, exec_keeps_r hs hne hi, hcfg]
      exact hreset

/-- R150, R152, R113: every operation keeps the reset invariant. -/
theorem exec_keeps_holdInv (h : HoldInv s) : HoldInv t := by
  obtain ⟨hcfg, hdom⟩ := holdInv_iff.mp h
  refine holdInv_iff.mpr ⟨(exec_cfg hs).symm ▸ hcfg, fun dom => ?_⟩
  by_cases hne : i = .resetAssert
  · subst hne
    exact (exec_next hs).2 ▸ domainHold_resetAll s dom
  · by_cases hi : i.format = edgeFormat dom
    · exact exec_edge_keeps_domainHold hs hcfg (hdom dom) hi
    · exact exec_other_keeps_domainHold hs (hdom dom) hne hi

end HoldStep

theorem holdInv_withEnv {s : State} (h : HoldInv s) (e : Environment) : HoldInv { s with env := e } := { h with }

/-- Settles O43: every operation keeps the reset invariant, whatever the environment. -/
theorem heldDomainKeepsResetValues : Obligations.HeldDomainKeepsResetValues := fun _ _ =>
  step_keeps fun _ _ e _ h hs => exec_keeps_holdInv hs (holdInv_withEnv h e)

/-! ### The outputs of a held domain, and on release (R153) -/

theorem held_write_outputs {s : State} (h : HoldInv s) (hh : s.wHeld = true) : s.wFull = true ∧ s.w.wOvf = false :=
  ⟨full_of_held hh, congrArg WriteDomain.wOvf (h.wHeldAtReset hh)⟩

theorem held_read_outputs {s : State} (h : HoldInv s) (hh : s.rHeld = true) :
    s.rEmpty = true ∧ s.r.rUdf = false ∧ s.r.rptValid = false ∧ s.r.rptKind = .drain ∧ s.r.rptData = 0 ∧
      s.r.rptPeriod = 0 := by
  have hr := h.rHeldAtReset hh
  exact ⟨empty_of_held hh, congrArg ReadDomain.rUdf hr, congrArg ReadDomain.rptValid hr,
    congrArg ReadDomain.rptKind hr, congrArg ReadDomain.rptData hr, congrArg ReadDomain.rptPeriod hr⟩

/-- Settles O28: a held edge keeps all but its reset synchroniser (O17); the released reset state has all its slots
free (O12) and both read pointers equal. -/
theorem heldOutputsAndRelease : Obligations.HeldOutputsAndRelease := by
  refine ⟨fun s h => ⟨fun hh => ?_, fun hh => ?_⟩, fun c hc => ⟨?_, ?_⟩⟩
  · obtain ⟨hfull, hovf⟩ := held_write_outputs h hh
    exact ⟨hfull, hovf, fun i hi hwf => ⟨_, (heldEdgeOnlyShiftsReset s i hwf).1 hi hh, rfl, rfl, rfl, hovf⟩⟩
  · obtain ⟨hempty, hudf, hvalid, hkind, hdata, hperiod⟩ := held_read_outputs h hh
    exact ⟨hempty, hudf, hvalid, hkind, hdata, hperiod,
      fun i hi hwf => ⟨_, (heldEdgeOnlyShiftsReset s i hwf).2 hi hh, rfl, hudf⟩⟩
  · obtain ⟨-, -, -, hfull, -⟩ := capacityIsSlotsMinusOne.1 c [] _ hc (by simp [NoReset]) (.done _) rfl
    have hslots := two_le_slots hc
    exact Bool.eq_false_iff.mpr fun hf => by
      have hcount : 0 = c.slots - 1 := hfull.mp hf
      omega
  · have hview : (State.released c).rView = 0 :=
      getLastD_of_forall (p := (· = 0)) rfl fun _ => List.eq_of_mem_replicate
    exact Bool.or_eq_true_iff.mpr (.inr (beq_iff_eq.mpr hview.symm))

/-! ### Reset events and the launch state (R151, R154, R155, R157) -/

/-- Settles O31: a deassertion is always well formed. -/
theorem resetDeassertOnlyLowersRst : Obligations.ResetDeassertOnlyLowersRst := by
  intro s
  have hexec : exec .resetDeassert s = .next { s with rstIn := false } := exec_of_wellFormed rfl
  exact ⟨hexec, fun hrst => by rw [hexec, ← hrst]⟩

/-- Settles O32: the launch state is its own `resetAll`. -/
theorem launchStateIsJustAfterReset : Obligations.LaunchStateIsJustAfterReset := fun _ =>
  ⟨exec_of_wellFormed rfl, rfl, fun _ => ⟨rfl, rfl⟩, rfl, rfl, rfl, rfl⟩

theorem run_of_fault {s : State} {r : Fault} (h : step s = .fault r) (k : Nat) : core.run (k + 1) s = .fault r := by
  have hcore : core.step s = .fault r := h
  simp only [Host.Core.run, hcore]

/-- Settles O33: the first step of the run faults, and no state follows. -/
theorem partialResetFaultsForGood : Obligations.PartialResetFaultsForGood := fun _ _ _ k hline =>
  run_of_fault (step_line hline) k

/-- Settles O38: a step is an operation, and no operation changes a parameter (`exec_cfg`). -/
theorem parametersNeverChange : Obligations.ParametersNeverChange := fun s _ =>
  step_keeps (Inv := fun t => t.cfg = s.cfg) (fun _ _ _ _ hcfg hs => (exec_cfg hs).trans hcfg) rfl

theorem holdInv_launch {c : Config} (hc : c.wf = true) : HoldInv (State.launch c) :=
  holdInv_iff.mpr ⟨hc, domainHold_resetAll (State.launch c)⟩

/-- R49, R155: the reset values have their declared widths and lengths, and no slot holds a record. -/
theorem wf_launch {c : Config} (hc : c.wf = true) : (State.launch c).Wf :=
  have hzero := slots_pos c
  have hstages : ∀ v ∈ List.replicate c.syncStages 0, v < c.slots := fun _ hv => List.eq_of_mem_replicate hv ▸ hzero
  { cfg := hc
    wptrBin := hzero
    wptrGray := hzero
    wqLength := List.length_replicate
    wq := hstages
    wRsLength := List.length_replicate
    rptrBin := hzero
    rptrGray := hzero
    rqLength := List.length_replicate
    rq := hstages
    rRsLength := List.length_replicate
    armSLength := List.length_replicate
    cycle := Nat.two_pow_pos _
    consumeEveryPos := le_rfl
    consumeEvery := one_lt_two_pow_periodBits hc
    rptData := Nat.two_pow_pos _
    rptPeriod := Nat.two_pow_pos _
    wgrayPrev := hzero
    rgrayPrev := hzero
    memCanonical := rfl
    memSlots := nofun
    memRecords := nofun
    staleRising := .nil
    staleHeld := nofun
    companionAbsent := fun _ =>
      ⟨rfl, fun _ => List.eq_of_mem_replicate, rfl, rfl, rfl, rfl, rfl, rfl, rfl, rfl⟩ }

/-- Settles O44: the launch state is its own `resetAll`, which meets the reset invariant and the ring invariant. -/
theorem launchStateMeetsInvariants : Obligations.LaunchStateMeetsInvariants := fun _ hc =>
  ⟨wf_launch hc, holdInv_launch hc, ringOk_launch hc⟩

/-! ### Counting the steps of an infinite run -/

/-- The operations of a kind among the steps from `n` on and before `m`. -/
def countBetween (q : Instr → Bool) (op : Nat → Instr) (n m : Nat) : Nat :=
  (List.range' n (m - n)).countP fun k => q (op k)

section CountBetween

variable {q : Instr → Bool} {op : Nat → Instr} {n m : Nat}

theorem range'_succ_end (h : n ≤ m) : List.range' n (m + 1 - n) = List.range' n (m - n) ++ [m] := by
  rw [Nat.succ_sub h, List.range'_1_concat, Nat.add_sub_cancel' h]

theorem countBetween_self : countBetween q op n n = 0 := by simp [countBetween]

theorem countBetween_succ (h : n ≤ m) :
    countBetween q op n (m + 1) = countBetween q op n m + if q (op m) = true then 1 else 0 := by
  rw [countBetween, range'_succ_end h, List.countP_append, List.countP_singleton, countBetween]

theorem countBetween_mono {m' : Nat} (h : n ≤ m) (hm : m ≤ m') : countBetween q op n m ≤ countBetween q op n m' := by
  induction m', hm using Nat.le_induction with
  | base => exact le_rfl
  | succ m' hm ih =>
    rw [countBetween_succ (h.trans hm)]
    omega

variable (hinf : Infinitely fun m => q (op m) = true)
include hinf

/-- The next operation of the kind, with none of it before. -/
theorem exists_next (h : n ≤ m) : ∃ k, m ≤ k ∧ q (op k) = true ∧ countBetween q op n k = countBetween q op n m := by
  obtain ⟨w, hw, hq⟩ := hinf m
  induction hd : w - m generalizing m with
  | zero =>
    obtain rfl : m = w := by omega
    exact ⟨m, le_rfl, hq, rfl⟩
  | succ d ih =>
    by_cases hm : q (op m) = true
    · exact ⟨m, le_rfl, hm, rfl⟩
    · obtain ⟨k, hk, hqk, hcount⟩ := ih (h.trans (Nat.le_succ m)) (by omega) (by omega)
      rw [countBetween_succ h, if_neg hm] at hcount
      exact ⟨k, by omega, hqk, hcount⟩

/-- The operation of the kind that has just `j` of it before. -/
theorem exists_countBetween (n j : Nat) : ∃ m, n ≤ m ∧ q (op m) = true ∧ countBetween q op n m = j := by
  induction j with
  | zero =>
    obtain ⟨m, hm, hq, hcount⟩ := exists_next hinf (le_refl n)
    exact ⟨m, hm, hq, hcount.trans countBetween_self⟩
  | succ j ih =>
    obtain ⟨m, hm, hq, hcount⟩ := ih
    obtain ⟨k, hk, hqk, hcount'⟩ := exists_next hinf (hm.trans (Nat.le_succ m))
    rw [countBetween_succ hm, if_pos hq, hcount] at hcount'
    exact ⟨k, by omega, hqk, hcount'⟩

end CountBetween

/-- A count that grows again and again while it is below `E` comes to `E`. -/
theorem reaches_of_progress {f : Nat → Nat} {E m : Nat}
    (hgrows : ∀ k, m ≤ k → f k < E → ∃ k', k ≤ k' ∧ f k < f k') : ∃ k, m ≤ k ∧ E ≤ f k := by
  by_contra hno
  simp only [not_exists, not_and, not_le] at hno
  have hevery : ∀ j, ∃ k, m ≤ k ∧ j ≤ f k := fun j => by
    induction j with
    | zero => exact ⟨m, le_rfl, Nat.zero_le _⟩
    | succ j ih =>
      obtain ⟨k, hk, hj⟩ := ih
      obtain ⟨k', hk', hlt⟩ := hgrows k hk (hno k hk)
      exact ⟨k', hk.trans hk', hj.trans_lt hlt⟩
  obtain ⟨k, hk, hE⟩ := hevery E
  exact absurd hE (hno k hk).not_ge

/-! ### What an operation adds to the counts (R104) -/

theorem PointerStep.count_eq {c : Config} {accepts : Bool} {p p' : PublishedPointer} (h : PointerStep c accepts p p') :
    p'.count = p.count + if accepts = true then 1 else 0 := by
  cases h <;> rfl

theorem acceptsDequeue_withEnv (i : Instr) (s : State) (e : Environment) :
    acceptsDequeue i { s with env := e } = acceptsDequeue i s := by
  cases i <;> rfl

/-! ### The stretches of an infinite run are runs -/

/-- The operations from step `n` on and before step `m`. -/
def segment (op : Nat → Instr) (n m : Nat) : List Instr := (List.range' n (m - n)).map op

theorem edgesOf_segment (dom : Domain) (op : Nat → Instr) (n m : Nat) :
    edgesOf dom (segment op n m) = countBetween (fun i => i.format == edgeFormat dom) op n m :=
  List.countP_map

theorem NoResetFrom.mono {op : Nat → Instr} {n m : Nat} (h : NoResetFrom op n) (hm : n ≤ m) : NoResetFrom op m :=
  fun k hk => h k (hm.trans hk)

theorem NoResetFrom.segment {op : Nat → Instr} {n : Nat} (h : NoResetFrom op n) (m : Nat) :
    NoReset (segment op n m) := by
  intro hmem
  obtain ⟨k, hk, hop⟩ := List.mem_map.mp hmem
  exact h k (List.left_le_of_mem_range' hk) hop

section Execution

variable {σ : Nat → State} {op : Nat → Instr} {n m : Nat} (h : Execution σ op)
include h

theorem Execution.run (hm : n ≤ m) : Run (σ n) (segment op n m) (σ m) := by
  induction m, hm using Nat.le_induction with
  | base => simpa [segment] using Run.done (σ n)
  | succ m hm ih =>
    obtain ⟨e, hs⟩ := h m
    rw [segment, range'_succ_end hm, List.map_append]
    exact ih.trans (.more e hs (.done _))

/-- What every operation but a reset assertion keeps holds on once resets have ceased. -/
theorem Execution.keeps {Inv : State → Prop}
    (keeps : ∀ (s t : State) (e : Environment) (i : Instr), i ≠ .resetAssert → Inv s →
      exec i { s with env := e } = .next t → Inv t)
    (hn : NoResetFrom op n) (hinv : Inv (σ n)) (hm : n ≤ m) : Inv (σ m) :=
  run_keeps_noReset keeps (hn.segment m) hinv (h.run hm)

variable (hn : NoResetFrom op n)
include hn

theorem Execution.released {dom : Domain} (hrel : (σ n).Released dom) (hm : n ≤ m) : (σ m).Released dom :=
  h.keeps (Inv := fun s => s.Released dom)
    (fun _ _ _ _ hne hrel hs => exec_keeps_released hs hne (by cases dom <;> exact hrel)) hn hrel hm

theorem Execution.rstIn_low (hrst : (σ n).rstIn = false) (hm : n ≤ m) : (σ m).rstIn = false :=
  h.keeps (Inv := fun s => s.rstIn = false) (fun _ _ _ _ hne hrst hs => exec_rstIn_low hs hne hrst) hn hrst hm

theorem Execution.enqCount_le (hm : n ≤ m) : (σ n).g.enqCount ≤ (σ m).g.enqCount :=
  run_count_le .read (hn.segment m) (h.run hm)

theorem Execution.deqCount_le (hm : n ≤ m) : (σ n).g.deqCount ≤ (σ m).g.deqCount :=
  run_count_le .write (hn.segment m) (h.run hm)

/-- R104: while nothing is accepted at the write port its count stays. -/
theorem Execution.enqCount_eq (hno : ∀ k, n ≤ k → acceptsEnqueue (op k) (σ k) = false) (hm : n ≤ m) :
    (σ m).g.enqCount = (σ n).g.enqCount := by
  induction m, hm using Nat.le_induction with
  | base => rfl
  | succ m hm ih =>
    obtain ⟨e, hs⟩ := h m
    have hcount : (σ (m + 1)).g.enqCount = (σ m).g.enqCount + if acceptsEnqueue (op m) (σ m) = true then 1 else 0 :=
      (exec_tailPtr hs (hn m hm)).count_eq
    rw [hcount, hno m hm, ih]
    rfl

/-- R104: a dequeue accepted raises the count of the read port. -/
theorem Execution.deqCount_lt (hm : n ≤ m) (hacc : acceptsDequeue (op m) (σ m) = true) :
    (σ m).g.deqCount < (σ (m + 1)).g.deqCount := by
  obtain ⟨e, hs⟩ := h m
  have hcount : (σ (m + 1)).g.deqCount =
      (σ m).g.deqCount + if acceptsDequeue (op m) { σ m with env := e } = true then 1 else 0 :=
    (exec_headPtr hs (hn m hm)).count_eq
  rw [acceptsDequeue_withEnv, if_pos hacc] at hcount
  omega

end Execution

/-! ### Fair runs (R167) -/

section FairRun

variable {c : Config} {σ : Nat → State} {op : Nat → Instr} {n m : Nat} (h : FairRun c σ op)
include h

/-- What holds at launch and every operation keeps, holds at every step. -/
theorem FairRun.invariant {Inv : State → Prop} (launch : Inv (State.launch c))
    (keeps : ∀ (s t : State) (e : Environment) (i : Instr), Inv s → exec i { s with env := e } = .next t → Inv t)
    (n : Nat) : Inv (σ n) :=
  run_keeps keeps (h.start ▸ launch) (h.execution.run (Nat.zero_le n))

theorem FairRun.wf (n : Nat) : (σ n).Wf :=
  h.invariant (wf_launch h.cfg) (fun _ _ e _ hwf => exec_keeps_wf (wf_withEnv hwf e)) n

theorem FairRun.ringOk (n : Nat) : (σ n).RingOk :=
  h.invariant (ringOk_launch h.cfg) (fun _ _ e _ hok => exec_keeps_ringOk (ringOk_withEnv hok e)) n

theorem FairRun.holdInv (n : Nat) : HoldInv (σ n) :=
  h.invariant (holdInv_launch h.cfg) (fun _ _ e _ hhold hs => exec_keeps_holdInv hs (holdInv_withEnv hhold e)) n

theorem FairRun.cfg_eq (n : Nat) : (σ n).cfg = c :=
  h.invariant (Inv := fun s => s.cfg = c) rfl (fun _ _ _ _ hcfg hs => (exec_cfg hs).trans hcfg) n

/-- R150: while `rst` is high nothing is accepted, so that both counts stand at 0. -/
theorem FairRun.counts_of_asserted (hrst : (σ n).rstIn = true) : (σ n).g.enqCount = 0 ∧ (σ n).g.deqCount = 0 := by
  refine (h.invariant (Inv := fun s => HoldInv s ∧ (s.rstIn = true → s.g.enqCount = 0 ∧ s.g.deqCount = 0))
    ⟨holdInv_launch h.cfg, fun _ => ⟨rfl, rfl⟩⟩ ?_ n).2 hrst
  rintro s t e i ⟨hhold, hzero⟩ hs
  have hhold' := holdInv_withEnv hhold e
  refine ⟨exec_keeps_holdInv hs hhold', fun hrst => ?_⟩
  by_cases hne : i = .resetAssert
  · subst hne
    exact (exec_next hs).2 ▸ ⟨rfl, rfl⟩
  · have hhigh := exec_rstIn_le hs hne hrst
    obtain ⟨hcfg, hdom⟩ := holdInv_iff.mp hhold'
    have hfull := full_of_held ((hdom .write).held_of_asserted hcfg hhigh)
    have hempty := empty_of_held ((hdom .read).held_of_asserted hcfg hhigh)
    have htail := (exec_tailPtr hs hne).count_eq
    have hhead := (exec_headPtr hs hne).count_eq
    rw [acceptsEnqueue_of_full i hfull] at htail
    rw [acceptsDequeue_of_empty i hempty] at hhead
    obtain ⟨hE, hD⟩ := hzero hhigh
    exact ⟨htail.trans hE, hhead.trans hD⟩

/-- R23: a domain's clock takes any number of edges. -/
theorem FairRun.edges (dom : Domain) (n k : Nat) : ∃ m, n ≤ m ∧ edgesOf dom (segment op n m) = k := by
  have hinf : Infinitely fun m => ((op m).format == edgeFormat dom) = true := by
    cases dom with
    | write => simpa [edgeFormat] using h.fair.writeClock
    | read => simpa [edgeFormat] using h.fair.readClock
  obtain ⟨m, hm, -, hcount⟩ := exists_countBetween (q := fun i => i.format == edgeFormat dom) hinf n k
  exact ⟨m, hm, (edgesOf_segment dom op n m).trans hcount⟩

variable (hn : NoResetFrom op n)
include hn

/-- R152: once `rst` is low each domain is released, for good while no reset comes. -/
theorem FairRun.eventually_released (dom : Domain) (hrst : (σ n).rstIn = false) : ∃ m, n ≤ m ∧ (σ m).Released dom := by
  obtain ⟨hcfg, hdom⟩ := holdInv_iff.mp (h.holdInv n)
  obtain ⟨j, hj, hchain⟩ := (hdom dom).chain
  obtain ⟨m, hm, hedges⟩ := h.edges dom n (σ n).cfg.rstStages
  rw [← Nat.min_eq_right hj] at hchain
  obtain ⟨hrst', hchain'⟩ := run_resetChain hrst hchain (hn.segment m) (h.execution.run hm)
  rw [hedges, Nat.min_eq_left (Nat.le_add_left _ _), releasingChain_self] at hchain'
  exact ⟨m, hm, released_iff.mpr ⟨hrst', hchain' ▸ fun _ => List.eq_of_mem_replicate⟩⟩

/-- R163, R164, R167: what a source has accepted is counted by the other domain's view, for good. -/
theorem FairRun.delivered (dom : Domain) (hrst : (σ n).rstIn = false) :
    ∃ m, n ≤ m ∧ ∀ k, m ≤ k → (σ k).Released dom ∧ ((σ n).source dom).count ≤ (σ k).viewCount dom := by
  obtain ⟨m, hm, hrel⟩ := h.eventually_released hn dom hrst
  obtain ⟨m', hm', hedges⟩ := h.edges dom m ((σ m).cfg.syncStages + 1)
  have hnm := hn.mono hm
  obtain ⟨tags, htags⟩ := (h.ringOk m).exists_tags dom
  refine ⟨m', hm.trans hm', fun k hk => ?_⟩
  obtain ⟨-, hrel', hlatest, -⟩ :=
    run_passage htags hrel (hnm.segment k) (h.execution.run (hm'.trans hk))
  refine ⟨hrel', (run_count_le dom (hn.segment m) (h.execution.run hm)).trans (hlatest ?_)⟩
  rw [edgesOf_segment] at hedges ⊢
  exact hedges ▸ countBetween_mono hm' hk

/-- R163, R164, R167: so each view comes to count it, whatever `rst` does. -/
theorem FairRun.view_catches_up (dom : Domain) :
    ∃ m, n ≤ m ∧ ∀ k, m ≤ k → ((σ n).source dom).count ≤ (σ k).viewCount dom := by
  cases hrst : (σ n).rstIn with
  | true =>
    obtain ⟨hE, hD⟩ := h.counts_of_asserted hrst
    have hzero : ((σ n).source dom).count = 0 := by
      cases dom with
      | write => exact hD
      | read => exact hE
    exact ⟨n, le_rfl, fun _ _ => hzero ▸ Nat.zero_le _⟩
  | false =>
    obtain ⟨m, hm, hdelivered⟩ := h.delivered hn dom hrst
    exact ⟨m, hm, fun k hk => (hdelivered k hk).2⟩

/-- R163, R167: a read port that attempts to consume again and again consumes every record accepted so far. -/
theorem FairRun.consumes_of_attempts (hrst : (σ n).rstIn = false)
    (hattempts : ∀ k, n ≤ k →
      ∃ k', k ≤ k' ∧ ((σ k').rEmpty = false → acceptsDequeue (op k') (σ k') = true)) :
    ∃ m, n ≤ m ∧ (σ n).g.enqCount ≤ (σ m).g.deqCount := by
  obtain ⟨m, hm, hdelivered⟩ := h.delivered hn .read hrst
  have hgrows : ∀ k, m ≤ k → (σ k).g.deqCount < (σ n).g.enqCount → ∃ k', k ≤ k' ∧
      (σ k).g.deqCount < (σ k').g.deqCount := fun k hk hleft => by
    have hnk := hn.mono (hm.trans hk)
    obtain ⟨k', hk', hattempt⟩ := hattempts k (hm.trans hk)
    rcases (h.execution.deqCount_le hnk hk').lt_or_eq with hlt | heq
    · exact ⟨k', hk', hlt⟩
    · obtain ⟨hrel, hcounted⟩ := hdelivered k' (hk.trans hk')
      have hvisible := visible_of_counted (h.ringOk k') hrel hcounted (heq ▸ hleft)
      have hlt := h.execution.deqCount_lt hnk hk' (hattempt hvisible)
      exact ⟨k' + 1, hk'.trans (Nat.le_succ k'), heq ▸ hlt⟩
  obtain ⟨k, hk, hE⟩ := reaches_of_progress hgrows
  exact ⟨k, hm.trans hk, hE⟩

/-- R167: so does a reader that dequeues whenever it can; while `rst` is high there is nothing to consume. -/
theorem FairRun.reader_consumes (hreader : ReaderDequeuesFrom σ op n) :
    ∃ m, n ≤ m ∧ (σ n).g.enqCount ≤ (σ m).g.deqCount := by
  cases hrst : (σ n).rstIn with
  | true => exact ⟨n, le_rfl, (h.counts_of_asserted hrst).1 ▸ Nat.zero_le _⟩
  | false =>
    refine h.consumes_of_attempts hn hrst fun k hk => ?_
    obtain ⟨k', hk', hi⟩ := h.fair.readClock k
    refine ⟨k', hk', fun hvisible => ?_⟩
    rw [hreader k' (hk.trans hk') hi hvisible]
    simp [acceptsDequeue, hvisible]

/-- R164, R167: where every record is consumed and no more is accepted, the write port comes to an edge with room. -/
theorem FairRun.writer_finds_room (hrst : (σ n).rstIn = false)
    (hno : ∀ k, n ≤ k → acceptsEnqueue (op k) (σ k) = false) (hm : n ≤ m)
    (hdrained : (σ n).g.enqCount ≤ (σ m).g.deqCount) :
    ∃ k, n ≤ k ∧ (op k).format = .we ∧ (σ k).wFull = false := by
  obtain ⟨m', hm', hdelivered⟩ := h.delivered (hn.mono hm) .write (h.execution.rstIn_low hn hrst hm)
  obtain ⟨k, hk, hi⟩ := h.fair.writeClock m'
  have hnk := hm.trans (hm'.trans hk)
  obtain ⟨hrel, hcounted⟩ := hdelivered k hk
  refine ⟨k, hnk, hi, room_of_counted (D := (σ m).g.deqCount) (h.ringOk k) hrel hcounted ?_⟩
  have hslots := two_le_slots (h.wf k).cfg
  have hE := h.execution.enqCount_eq hn hno hnk
  rw [Config.capacity]
  omega

/-- R167: with such a reader, a writer that enqueues whenever it has room has an enqueue accepted. -/
theorem FairRun.writer_accepts (hreader : ReaderDequeuesFrom σ op n) (hlow : ∃ m, n ≤ m ∧ (σ m).rstIn = false)
    (hwriter : ∀ m, n ≤ m → (op m).format = .we → (σ m).wFull = false → requestsEnqueue (op m) = true) :
    ∃ m, n ≤ m ∧ acceptsEnqueue (op m) (σ m) = true := by
  by_contra hnever
  simp only [not_exists, not_and, Bool.not_eq_true] at hnever
  obtain ⟨m, hm, hrst⟩ := hlow
  have hnm := hn.mono hm
  obtain ⟨k, hk, hdrained⟩ := h.reader_consumes hnm fun k hk => hreader k (hm.trans hk)
  obtain ⟨w, hw, hi, hroom⟩ := h.writer_finds_room hnm hrst (fun k hk => hnever k (hm.trans hk)) hk hdrained
  have hrequest := hwriter w (hm.trans hw) hi hroom
  have haccepts : acceptsEnqueue (op w) (σ w) = true := by simp [acceptsEnqueue, hrequest, hroom]
  exact nomatch haccepts.symm.trans (hnever w (hm.trans hw))

end FairRun

/-- Settles O55. While `rst` stays high both counts are 0 (R150); once it is low each domain is released, and its view
comes to count what its source has accepted. -/
theorem fairRunsDeliverAndRelease : Obligations.FairRunsDeliverAndRelease := fun _ _ _ _ h hn =>
  ⟨h.view_catches_up hn .read, h.view_catches_up hn .write, h.reader_consumes hn, h.writer_accepts hn⟩

/-! ### The companion on a fair run (R126, R165, R167) -/

theorem exists_of_isTick {i : Instr} (h : isTick i = true) : ∃ m, i = .rcTick m := by
  cases i with
  | rcTick m => exact ⟨m, rfl⟩
  | wNop _ | wEnq _ | wArm _ | wEnqArm _ | rNop _ | rDeq _ | resetAssert | resetDeassert => cases h

/-- R126: an operation that is no reset assertion clears `cycle` at a due tick, counts up at any other tick of an
enabled companion, and else leaves it. -/
theorem exec_cycle {i : Instr} {s t : State} (hs : exec i s = .next t) (hne : i ≠ .resetAssert) :
    t.r.cycle =
      if dueTick i s = true then 0
      else if isTick i = true ∧ s.rHeld = false ∧ s.r.enable = true then nextCycle s.cfg s.r.cycle
      else s.r.cycle := by
  by_cases hi : i.format = .re
  · cases hh : s.rHeld with
    | true =>
      rw [dueTick_of_held i hh, (exec_next hs).2, after_read_held hi hh]
      simp
    | false =>
      obtain ⟨-, rfl⟩ := exec_next hs
      cases i with
      | rNop m => rw [after_rNop_released hh]; rfl
      | rDeq m =>
        cases he : s.rEmpty with
        | true => rw [after_rDeq_empty hh he]; rfl
        | false => rw [after_rDeq_visible he]; rfl
      | rcTick m =>
        rw [after_rcTick_released hh]
        rcases tick_cases m s (readFrame s) with ⟨hen, e⟩ | ⟨hen, hwait, e⟩ | ⟨hen, hperiod, -, e⟩ |
          ⟨hen, hperiod, -, e⟩ <;> rw [e]
        · simp [dueTick, hen]
        · simp [dueTick, hwait, hen, isTick]
        · rw [dueTick_iff.mpr ⟨hh, hen, hperiod⟩]; rfl
        · rw [dueTick_iff.mpr ⟨hh, hen, hperiod⟩]; rfl
      | wNop _ | wEnq _ | wArm _ | wEnqArm _ | resetAssert | resetDeassert => cases hi
  · rw [dueTick_of_format hi, exec_keeps_r hs hne hi, if_neg Bool.false_ne_true]
    refine (if_neg ?_).symm
    rintro ⟨htick, -⟩
    obtain ⟨m, rfl⟩ := exists_of_isTick htick
    exact hi rfl

theorem ticksBetween_eq (op : Nat → Instr) (n m : Nat) : ticksBetween op n m = countBetween isTick op n m := rfl

theorem enable_of_dueTick {i : Instr} {s : State} (h : dueTick i s = true) : s.r.enable = true := by
  cases i with
  | rcTick m => exact (dueTick_iff.mp h).2.1
  | wNop _ | wEnq _ | wArm _ | wEnqArm _ | rNop _ | rDeq _ | resetAssert | resetDeassert => cases h

theorem acceptsDequeue_of_dueTick {i : Instr} {s : State} (hdue : dueTick i s = true) (he : s.rEmpty = false) :
    acceptsDequeue i s = true := by
  cases i with
  | rcTick m => simp [acceptsDequeue, hdue, he]
  | wNop _ | wEnq _ | wArm _ | wEnqArm _ | rNop _ | rDeq _ | resetAssert | resetDeassert => cases hdue

theorem dueTick_withEnv (i : Instr) (s : State) (e : Environment) :
    dueTick i { s with env := e } = dueTick i s := by
  cases i <;> rfl

theorem exec_rcTick_fits {m : Nat} {s t : State} (hs : exec (.rcTick m) s = .next t) : m < 2 ^ s.cfg.periodBits := by
  obtain ⟨hwf, -⟩ := exec_next hs
  simp only [Instr.wellFormed, Instr.fitsFormat, fits, Bool.and_eq_true, decide_eq_true_eq] at hwf
  exact hwf.1

/-- R125: `cycle + 1` fits its register. -/
def State.CycleFits (s : State) : Prop := s.r.cycle + 1 < 2 ^ (s.cfg.periodBits + 1)

/-- R125: a tick that is not due leaves `cycle` below a period, and no period needs the register's last value. -/
theorem exec_keeps_cycleFits {i : Instr} {s t : State} (hwf : s.Wf) (h : s.CycleFits) (hs : exec i s = .next t) :
    t.CycleFits := by
  have hzero : 0 + 1 < 2 ^ (s.cfg.periodBits + 1) := Nat.one_lt_two_pow (Nat.succ_ne_zero _)
  rw [State.CycleFits, exec_cfg hs]
  by_cases hne : i = .resetAssert
  · subst hne
    obtain ⟨-, rfl⟩ := exec_next hs
    exact hzero
  rw [exec_cycle hs hne]
  split
  · exact hzero
  next hdue =>
    split
    next htick =>
      obtain ⟨htick, hh, hen⟩ := htick
      obtain ⟨m, rfl⟩ := exists_of_isTick htick
      have hperiod := effectivePeriod_lt hwf.consumeEvery (exec_rcTick_fits hs)
      have hwait : nextCycle s.cfg s.r.cycle < effectivePeriod s.r.consumeEvery m := by
        by_contra hge
        exact hdue (dueTick_iff.mpr ⟨hh, hen, not_lt.mp hge⟩)
      omega
    next => exact h

/-- `k` ticks after `s` with the companion enabled and none of them due. -/
structure TicksCounted (s : State) (k : Nat) (t : State) : Prop where
  released : t.ReadReleased
  enable : t.r.enable = true
  consumeEvery : t.r.consumeEvery = s.r.consumeEvery
  cycle : t.r.cycle = s.r.cycle + k

/-- R126: an operation that is no due tick counts a tick, and leaves `enable` and the period. -/
theorem TicksCounted.exec {s t u : State} {k : Nat} {i : Instr} (h : TicksCounted s k t) (hfits : t.CycleFits)
    (hdue : dueTick i t = false) (hne : i ≠ .resetAssert) (hs : exec i t = .next u) :
    TicksCounted s (k + if isTick i = true then 1 else 0) u := by
  have hh := not_held_of_readReleased h.released
  have hcycle := exec_cycle hs hne
  have hce := exec_consumeEvery hs hne
  rw [hdue, if_neg Bool.false_ne_true, nextCycle_of_lt hfits, h.cycle] at hcycle
  rw [takesUnderrun_of_not_due hdue, if_neg Bool.false_ne_true, h.consumeEvery] at hce
  refine ⟨exec_keeps_readReleased hne h.released hs, ?_, hce, ?_⟩
  · by_cases hi : i.format = .re
    · rcases exec_read_companion_cases hs hi hh with ⟨-, hregs⟩ | ⟨m, -, hd, -⟩ | ⟨m, -, hd, -⟩
      · exact (congrArg CompanionRegs.enable hregs).trans (readFrame_keeps_enable h.enable)
      all_goals exact nomatch hdue.symm.trans hd
    · rw [exec_keeps_r hs hne hi, h.enable]
  · by_cases htick : isTick i = true <;> simpa [htick, hh, h.enable, Nat.add_assoc] using hcycle

section FairCompanion

variable {c : Config} {σ : Nat → State} {op : Nat → Instr} {n : Nat} (h : FairRun c σ op)
include h

theorem FairRun.cycleFits (n : Nat) : (σ n).CycleFits := by
  refine (h.invariant (Inv := fun s => s.Wf ∧ s.CycleFits)
    ⟨wf_launch h.cfg, Nat.one_lt_two_pow (Nat.succ_ne_zero _)⟩ (fun s t e i ⟨hwf, hfits⟩ hs => ?_) n).2
  have hwf' := wf_withEnv hwf e
  exact ⟨exec_keeps_wf hwf' hs, exec_keeps_cycleFits hwf' hfits hs⟩

/-- R113: a domain whose registers have left their reset values is released. -/
theorem FairRun.released_of_left {dom : Domain} (hleft : ¬(σ n).AtReset dom) : (σ n).Released dom := by
  obtain ⟨hcfg, hdom⟩ := holdInv_iff.mp (h.holdInv n)
  exact (hdom dom).released hcfg (Bool.eq_false_iff.mpr fun hheld => hleft ((hdom dom).atReset hheld))

theorem FairRun.readReleased_of_enable (hen : (σ n).r.enable = true) : (σ n).ReadReleased :=
  h.released_of_left (dom := .read) fun hreset => nomatch (congrArg ReadDomain.enable hreset).symm.trans hen

theorem FairRun.writeReleased_of_armed (harmed : (σ n).w.armQ = true) : (σ n).WriteReleased :=
  h.released_of_left (dom := .write) fun hreset => nomatch (congrArg WriteDomain.armQ hreset).symm.trans harmed

/-- R126: every modifier presented fits its field. -/
theorem FairRun.modifier_lt {m k : Nat} (hop : op m = .rcTick k) : k < 2 ^ c.periodBits := by
  obtain ⟨e, hs⟩ := h.execution m
  rw [hop] at hs
  exact h.cfg_eq m ▸ exec_rcTick_fits (s := { σ m with env := e }) hs

variable (hn : NoResetFrom op n)
include hn

/-- R126: from an enabled state the ticks count up to the first one that is due. -/
theorem FairRun.ticksCounted (hen : (σ n).r.enable = true) {m : Nat} (hm : n ≤ m)
    (hnone : ∀ k, n ≤ k → k < m → dueTick (op k) (σ k) = false) : TicksCounted (σ n) (ticksBetween op n m) (σ m) := by
  induction m, hm using Nat.le_induction with
  | base =>
    rw [ticksBetween_eq, countBetween_self]
    exact ⟨h.readReleased_of_enable hen, hen, rfl, rfl⟩
  | succ m hm ih =>
    obtain ⟨e, hs⟩ := h.execution m
    have hcounted := ih fun k hk hlt => hnone k hk (hlt.trans (Nat.lt_succ_self m))
    have hdue := hnone m hm (Nat.lt_succ_self m)
    rw [ticksBetween_eq, countBetween_succ hm]
    exact TicksCounted.exec (t := { σ m with env := e }) { hcounted with } (h.cycleFits m)
      ((dueTick_withEnv _ _ e).trans hdue) (hn m hm) hs

/-- R126, R130, R167: the tick with `consume_every + bound - 1` ticks before it is due, if none before it is. -/
theorem FairRun.due_tick {bound : Nat} (hen : (σ n).r.enable = true) (hticks : Infinitely fun m => isTick (op m) = true)
    (hbound : ∀ m k, n ≤ m → op m = .rcTick k → k ≤ bound) :
    ∃ m, n ≤ m ∧ dueTick (op m) (σ m) = true ∧ ticksBetween op n m < (σ n).r.consumeEvery + bound := by
  have hpos := (h.wf n).consumeEveryPos
  simp only [ticksBetween_eq]
  obtain ⟨m, hm, htick, hcount⟩ := exists_countBetween hticks n ((σ n).r.consumeEvery + bound - 1)
  by_cases hsome : ∃ k, n ≤ k ∧ k < m ∧ dueTick (op k) (σ k) = true
  · obtain ⟨k, hk, hlt, hdue⟩ := hsome
    have hmono := countBetween_mono (q := isTick) (op := op) hk hlt.le
    exact ⟨k, hk, hdue, by omega⟩
  · simp only [not_exists, not_and, Bool.not_eq_true] at hsome
    have hcounted := h.ticksCounted hn hen hm hsome
    rw [ticksBetween_eq, hcount] at hcounted
    obtain ⟨k, hop⟩ := exists_of_isTick htick
    have hk := hbound m k hm hop
    have hcycle := hcounted.cycle
    have hce := hcounted.consumeEvery
    refine ⟨m, hm, hop ▸ ?_, by omega⟩
    exact dueTick_of_elapsed (not_held_of_readReleased hcounted.released) hcounted.enable (h.cycleFits m) (by omega)

section Arm

variable (hrc : c.hasRc = true) (harms : ∀ m, n ≤ m → (op m).format = .we → armLevel (op m) = true)
include hrc harms

omit hrc in
theorem FairRun.stays_armed (harmed : (σ n).w.armQ = true) {m : Nat} (hm : n ≤ m) : (σ m).w.armQ = true := by
  induction m, hm using Nat.le_induction with
  | base => exact harmed
  | succ m hm ih =>
    obtain ⟨e, hs⟩ := h.execution m
    by_cases hi : (op m).format = .we
    · exact (exec_keeps_arm hs hi (harms m hm hi) ih).1
    · rw [exec_keeps_w hs (hn m hm) hi]
      exact ih

/-- R165, R167: an arm that is held sets `enable`; an underrun at the edge that would set it shows that it was set. -/
theorem FairRun.arm_enables (harmed : (σ n).w.armQ = true) : ∃ m, n ≤ m ∧ (σ m).r.enable = true := by
  obtain ⟨hrst, -⟩ := h.writeReleased_of_armed harmed
  obtain ⟨m, hm, hrel⟩ := h.eventually_released hn .read hrst
  obtain ⟨m', hm', hedges⟩ := h.edges .read m ((σ m).r.armS.length + 1)
  obtain ⟨k, hk, hi⟩ := h.fair.readClock m'
  have hmk := hm'.trans hk
  have harms' : ∀ i ∈ segment op m k, i.format = .we → armLevel i = true := fun i hmem hi => by
    obtain ⟨k', hk', rfl⟩ := List.mem_map.mp hmem
    exact harms k' (hm.trans (List.left_le_of_mem_range' hk')) hi
  have hpassage := (armPassage_start ((h.cfg_eq m).symm ▸ hrc) hrel (h.stays_armed hn harms harmed hm)).run
    ((hn.mono hm).segment k) harms' (h.execution.run hmk)
  have hlong : (σ m).r.armS.length + 1 ≤ edgesOf .read (segment op m k) := by
    rw [edgesOf_segment] at hedges ⊢
    exact hedges ▸ countBetween_mono hm' hk
  have hview : (σ k).armView = true :=
    hpassage.armView_of_passed (chain_ne_nil (h.wf m).cfg (h.wf m).armSLength) (hlong.trans (Nat.le_add_left _ _))
  obtain ⟨e, hs⟩ := h.execution k
  have henable := enableFollowsArmUnlessUnderrun { σ k with env := e } _ _ hpassage.companion hi
    (not_held_of_readReleased hpassage.released) hs
  cases hu : takesUnderrun (op k) { σ k with env := e } with
  | true =>
    obtain ⟨hdue, -⟩ := Bool.and_eq_true_iff.mp hu
    exact ⟨k, hm.trans hmk, enable_of_dueTick hdue⟩
  | false =>
    rw [hu, if_neg Bool.false_ne_true, armView_withEnv, hview, if_pos rfl] at henable
    exact ⟨k + 1, by omega, henable⟩

/-- R167: with the arm held and ticks without end, every record accepted so far is drained. -/
theorem FairRun.ticks_consume (harmed : (σ n).w.armQ = true) (hticks : Infinitely fun m => isTick (op m) = true) :
    ∃ m, n ≤ m ∧ (σ n).g.enqCount ≤ (σ m).g.deqCount := by
  obtain ⟨hrst, -⟩ := h.writeReleased_of_armed harmed
  refine h.consumes_of_attempts hn hrst fun k hk => ?_
  obtain ⟨k₁, hk₁, hen⟩ := FairRun.arm_enables h (hn.mono hk) hrc (fun m hm => harms m (hk.trans hm))
    (h.stays_armed hn harms harmed hk)
  obtain ⟨k₂, hk₂, hdue, -⟩ := h.due_tick (hn.mono (hk.trans hk₁)) hen hticks
    fun _ _ _ hop => (h.modifier_lt hop).le
  exact ⟨k₂, hk₁.trans hk₂, acceptsDequeue_of_dueTick hdue⟩

end Arm

/-- R167: a producer that arms while the ring is full and enqueues while it is not has an enqueue accepted: else it
would arm for ever, and the ticks would drain the ring. -/
theorem FairRun.producer_accepts (hrc : c.hasRc = true) (hticks : Infinitely fun m => isTick (op m) = true)
    (hlow : ∃ m, n ≤ m ∧ (σ m).rstIn = false)
    (hproducer : ∀ m, n ≤ m → (op m).format = .we →
      if (σ m).wFull = true then armLevel (op m) = true else requestsEnqueue (op m) = true) :
    ∃ m, n ≤ m ∧ acceptsEnqueue (op m) (σ m) = true := by
  by_contra hnever
  simp only [not_exists, not_and, Bool.not_eq_true] at hnever
  have hfull : ∀ m, n ≤ m → (op m).format = .we → (σ m).wFull = true := fun m hm hi => by
    by_contra hroom
    have hrequest := hproducer m hm hi
    rw [if_neg hroom] at hrequest
    have hnot := hnever m hm
    rw [acceptsEnqueue, hrequest, Bool.eq_false_iff.mpr hroom] at hnot
    cases hnot
  have harms : ∀ m, n ≤ m → (op m).format = .we → armLevel (op m) = true := fun m hm hi => by
    simpa [hfull m hm hi] using hproducer m hm hi
  obtain ⟨m₀, hm₀, hrst₀⟩ := hlow
  obtain ⟨m₁, hm₁, hrel⟩ := h.eventually_released (hn.mono hm₀) .write hrst₀
  obtain ⟨m₂, hm₂, hi⟩ := h.fair.writeClock m₁
  have hnm₁ := hm₀.trans hm₁
  have hnm₂ := hnm₁.trans hm₂
  have hnm := hnm₂.trans (Nat.le_succ m₂)
  have hnoReset := hn.mono hnm
  have harmed : (σ (m₂ + 1)).w.armQ = true := by
    obtain ⟨e, hs⟩ := h.execution m₂
    have hheld := not_held_of_writeReleased (h.execution.released (hn.mono hnm₁) (dom := .write) hrel hm₂)
    rw [(exec_arm_as_writeFrame hs hi hheld).1]
    simp [writeFrame, h.cfg_eq, hrc, harms m₂ hnm₂ hi]
  obtain ⟨k, hk, hdrained⟩ := h.ticks_consume hnoReset hrc (fun m hm => harms m (hnm.trans hm)) harmed hticks
  obtain ⟨w, hw, hi', hroom⟩ := h.writer_finds_room hnoReset (h.writeReleased_of_armed harmed).1
    (fun k hk => hnever k (hnm.trans hk)) hk hdrained
  exact nomatch hroom.symm.trans (hfull w (hnm.trans hw) hi')

end FairCompanion

/-- Settles O56: the arm comes to `enable`, the ticks of an enabled companion to a due one, and both together drain the
ring of a producer that waits. -/
theorem fairTicksMakeProgress : Obligations.FairTicksMakeProgress := fun _ _ _ _ hrc h hn =>
  ⟨fun harmed harms => h.arm_enables hn hrc harms harmed, fun _ hen => h.due_tick hn hen, h.producer_accepts hn hrc⟩

end Sys2Proof.Machine
